-- ==== Sys2Proof/Word.lean ====
section
/-! DEFINITION. The plain value types of the block: bytes, words, quantity images, chip register addresses, and the
5-byte frame of the bus (spec/00_scope.md R10, spec/30_encoding.md R80). -/

namespace Sys2Proof

/-- R10: a byte is 8 bits. -/
abbrev Byte := BitVec 8

/-- R10: a word is 32 bits. -/
abbrev Word := BitVec 32

/-- R22: a quantity register holds 64 bits (signed, 32 fraction bits). -/
abbrev Quad := BitVec 64

/-- R58: a chip register address is 7 bits, 0 to 127. -/
abbrev Addr := BitVec 7

/-- R10, R80: a frame is five bytes, `b0` sent first. -/
structure Frame where
  b0 : Byte
  b1 : Byte
  b2 : Byte
  b3 : Byte
  b4 : Byte
  deriving DecidableEq, Repr, Inhabited

/-- R52: what the transport answers to one `Transfer`: `ok` and the five receive bytes. -/
structure Answer where
  ok : Bool
  rx : Frame
  deriving DecidableEq, Repr, Inhabited

end Sys2Proof
end

