-- ==== Sys2Proof/Config.lean ====
section
/-! DEFINITION. What an instance of the block is built from (spec/00_scope.md R6, R7, R9; spec/10_state.md R30 to R33),
the check that refuses an invalid configuration, the reference instance T of spec/93_implementation_defined.md, and the
values the spec leaves free. -/

namespace Sys2Proof

/-- R30: the access mode of a chip register. -/
inductive Access where
  | readOnly
  | writeOnly
  | readWrite
  deriving DecidableEq, Repr

/-- R30: `{address ∈ [0,127], access, volatile}`. -/
structure RegisterDescriptor where
  address  : Addr
  access   : Access
  volatile : Bool
  deriving DecidableEq, Repr

/-- R30: `writable(d)`. -/
def RegisterDescriptor.writable (d : RegisterDescriptor) : Bool :=
  match d.access with
  | .readOnly  => false
  | .writeOnly => true
  | .readWrite => true

/-- R115: `readable(d)`. -/
def RegisterDescriptor.readable (d : RegisterDescriptor) : Bool :=
  match d.access with
  | .readOnly  => true
  | .writeOnly => false
  | .readWrite => true

/-- R30: `hw_read(d)`: volatile, or ReadOnly. -/
def RegisterDescriptor.hwRead (d : RegisterDescriptor) : Bool :=
  d.volatile || d.access == .readOnly

/-- R32: owning register, bit offset, bit width; the mask is a function of these (R112). -/
structure FieldDescriptor where
  reg    : Addr
  offset : Nat
  width  : Nat
  deriving DecidableEq, Repr

/-- R32: `1 <= width` and `offset + width <= 32` (so `offset <= 31` and `width <= 32`). -/
def FieldDescriptor.fits (F : FieldDescriptor) : Bool :=
  decide (1 ≤ F.width) && decide (F.offset + F.width ≤ 32)

/-- R7: the role constants, registers. -/
structure RegisterRoles where
  rampmode     : Addr
  vmax         : Addr
  startSpeed   : Addr
  xtarget      : Addr
  globalScaler : Addr
  a1           : Addr
  amax         : Addr
  dmax         : Addr
  d1           : Addr
  current      : Addr
  xactual      : Addr
  vactual      : Addr
  deriving DecidableEq, Repr

/-- R7: the role constants, field ids. -/
structure FieldRoles where
  irun       : Word
  ihold      : Word
  iholddelay : Word
  stealth    : Word
  deriving DecidableEq, Repr

/-- R6, R7, R9: everything fixed before reset. -/
structure ConfigData where
  /-- `CLOCK_HZ`, a rational number of hertz. -/
  clockHz : Rat
  /-- `FULL_STEPS`, an integer. -/
  fullSteps : Nat
  /-- `R_SENSE`, a rational number of ohms. -/
  rSense : Rat
  /-- `REGISTRY`, one descriptor for each known address. -/
  registry : List RegisterDescriptor
  /-- `FIELDS`, from field ids to descriptors. -/
  fields : List (Word × FieldDescriptor)
  /-- `REG_RAMPMODE` and the other register roles. -/
  regs : RegisterRoles
  /-- `F_IRUN` and the other field roles. -/
  roleFields : FieldRoles
  /-- `IHOLDDELAY_DEFAULT`. -/
  iholddelayDefault : Word
  /-- `XFER_TIMEOUT` (R9): handed to the transport with every transfer, read by no rule. -/
  xferTimeout : Nat
  deriving DecidableEq, Repr

namespace ConfigData

/-- R31: `REGISTRY(a)`, none for an unknown address. -/
def register? (c : ConfigData) (a : Addr) : Option RegisterDescriptor :=
  c.registry.find? fun d => d.address == a

/-- R32: `FIELDS(f)`, none for an unknown field id. -/
def field? (c : ConfigData) (f : Word) : Option FieldDescriptor :=
  (c.fields.find? fun e => e.1 == f).map Prod.snd

/-- R7: the register roles, as a list. -/
def roleAddresses (c : ConfigData) : List Addr :=
  [c.regs.rampmode, c.regs.vmax, c.regs.startSpeed, c.regs.xtarget, c.regs.globalScaler, c.regs.a1, c.regs.amax,
   c.regs.dmax, c.regs.d1, c.regs.current, c.regs.xactual, c.regs.vactual]

/-- R6: all three converter parameters are above zero. -/
def parametersValid (c : ConfigData) : Bool :=
  decide (0 < c.clockHz) && decide (0 < c.fullSteps) && decide (0 < c.rSense)

/-- R31: the registry is a map: one descriptor for an address. -/
def registryValid (c : ConfigData) : Bool :=
  decide ((c.registry.map RegisterDescriptor.address).Nodup)

/-- R7, R32: the field table is a map, every field fits its register, and that register is known. -/
def fieldsValid (c : ConfigData) : Bool :=
  decide ((c.fields.map Prod.fst).Nodup) &&
    c.fields.all fun e => e.2.fits && (c.register? e.2.reg).isSome

/-- R7: every register role is known to the registry, and the two read-back registers are volatile. -/
def registerRolesValid (c : ConfigData) : Bool :=
  (c.roleAddresses.all fun a => (c.register? a).isSome) &&
    (c.register? c.regs.xactual).any RegisterDescriptor.volatile &&
    (c.register? c.regs.vactual).any RegisterDescriptor.volatile

/-- R7: every field role is defined, the three current fields belong to `REG_CURRENT`, the chopper field has width 1,
and the default hold delay fits its field. -/
def fieldRolesValid (c : ConfigData) : Bool :=
  ((c.field? c.roleFields.irun).any fun F => F.reg == c.regs.current) &&
    ((c.field? c.roleFields.ihold).any fun F => F.reg == c.regs.current) &&
    ((c.field? c.roleFields.iholddelay).any fun F =>
      F.reg == c.regs.current && decide (c.iholddelayDefault.toNat < 2 ^ F.width)) &&
    ((c.field? c.roleFields.stealth).any fun F => F.width == 1)

/-- R6, R7, R32: a valid configuration. -/
def valid (c : ConfigData) : Bool :=
  c.parametersValid && c.registryValid && c.fieldsValid && c.registerRolesValid && c.fieldRolesValid

end ConfigData

/-- R6, R7, R32: a configuration an instance can be built from. The proof stands beside the data, so that no state of the
machine holds an invalid configuration: "the model refuses to build an instance with one". -/
structure Config extends ConfigData where
  ok : toConfigData.valid = true
  deriving DecidableEq, Repr

/-- R6, R7, R32 (spec/93_implementation_defined.md U15): build a configuration, or refuse. -/
def ConfigData.build (c : ConfigData) : Option Config :=
  if h : c.valid = true then some { c with ok := h } else none

/-- A 32-bit word under no law (R12 `draw32()`), one for each value of the state's counter of draws. -/
opaque Config.freeWord : Nat → Word

/-- 64 bits under no law (R164, R210, R23), one for each value of the counter of draws. -/
opaque Config.freeQuad : Nat → Quad

/-- The transport's answer where the state's list of answers is used up (R52: a free input; every `Transfer` returns). -/
opaque Config.freeAnswer : Nat → Answer

namespace Reference

/-- A ReadWrite register of instance T. -/
def rw (a : Addr) (vol : Bool) : RegisterDescriptor := ⟨a, .readWrite, vol⟩
/-- A ReadOnly register of instance T. -/
def ro (a : Addr) (vol : Bool) : RegisterDescriptor := ⟨a, .readOnly, vol⟩
/-- A WriteOnly register of instance T (none of them is volatile). -/
def wo (a : Addr) : RegisterDescriptor := ⟨a, .writeOnly, false⟩

/-- Instance T, general configuration 0x00 to 0x0C. PRESUMED: spec/93 Part 3 takes it from the chip family. -/
def generalConfig : List RegisterDescriptor :=
  [rw 0x00 false, rw 0x01 true, ro 0x02 true, wo 0x03, ro 0x04 true, wo 0x05, wo 0x06, ro 0x07 false, rw 0x08 false,
   wo 0x09, wo 0x0A, wo 0x0B, ro 0x0C false]

/-- Instance T, current and timing 0x10 to 0x15. PRESUMED. -/
def currentTiming : List RegisterDescriptor :=
  [wo 0x10, wo 0x11, ro 0x12 true, wo 0x13, wo 0x14, wo 0x15]

/-- Instance T, ramp generator 0x20 to 0x2D (0x29 unknown). PRESUMED. -/
def rampGenerator : List RegisterDescriptor :=
  [rw 0x20 false, rw 0x21 true, ro 0x22 true, wo 0x23, wo 0x24, wo 0x25, wo 0x26, wo 0x27, wo 0x28, wo 0x2A, wo 0x2B,
   wo 0x2C, rw 0x2D false]

/-- Instance T, switches and encoder 0x33 to 0x3C (0x37 unknown). PRESUMED. -/
def switchesEncoder : List RegisterDescriptor :=
  [wo 0x33, rw 0x34 false, rw 0x35 true, ro 0x36 true, rw 0x38 false, rw 0x39 true, wo 0x3A, rw 0x3B true, ro 0x3C true]

/-- Instance T, microstep table 0x60 to 0x6B. PRESUMED. -/
def microstepTable : List RegisterDescriptor :=
  [wo 0x60, wo 0x61, wo 0x62, wo 0x63, wo 0x64, wo 0x65, wo 0x66, wo 0x67, wo 0x68, wo 0x69, ro 0x6A true, ro 0x6B true]

/-- Instance T, chopper and PWM 0x6C to 0x73. PRESUMED. -/
def chopperPwm : List RegisterDescriptor :=
  [rw 0x6C false, wo 0x6D, wo 0x6E, ro 0x6F true, wo 0x70, ro 0x71 true, ro 0x72 true, ro 0x73 true]

/-- Instance T, the field table (field id, register, offset, width). PRESUMED. -/
def fieldTable : List (Word × FieldDescriptor) :=
  [(1, ⟨0x10, 0, 5⟩), (2, ⟨0x10, 8, 5⟩), (3, ⟨0x10, 16, 4⟩), (4, ⟨0x00, 2, 1⟩), (5, ⟨0x6C, 0, 4⟩), (6, ⟨0x6C, 24, 4⟩),
   (7, ⟨0x2D, 0, 32⟩)]

/-- Reference instance T (spec/93_implementation_defined.md Part 3). The three converter parameters are the source's own;
the rest is PRESUMED, as that part says. `XFER_TIMEOUT` "any value": DESIGN CHOICE 0. -/
def data : ConfigData where
  clockHz := 12000000
  fullSteps := 200
  rSense := 3 / 40
  registry := generalConfig ++ currentTiming ++ rampGenerator ++ switchesEncoder ++ microstepTable ++ chopperPwm
  fields := fieldTable
  regs := { rampmode := 0x20, vmax := 0x27, startSpeed := 0x23, xtarget := 0x2D, globalScaler := 0x0B, a1 := 0x24,
            amax := 0x26, dmax := 0x28, d1 := 0x2A, current := 0x10, xactual := 0x21, vactual := 0x22 }
  roleFields := { irun := 2, ihold := 1, iholddelay := 3, stealth := 4 }
  iholddelayDefault := 6
  xferTimeout := 0

end Reference

/-- Instance T is a valid configuration (spec/93_implementation_defined.md Part 3, last paragraph). -/
theorem Reference.data_valid : Reference.data.valid = true := by decide +kernel

/-- Reference instance T, the configuration `State.reset` is built from. -/
def Config.reference : Config := { Reference.data with ok := Reference.data_valid }

end Sys2Proof
end

