-- ==== Sys2Proof/Syntax.lean ====
section
/-! DEFINITION. The commands of the block and its three wire frames, one constructor for each row of
spec/opcode_table.json (spec/30_encoding.md R89, R81), and the operand formats of R90. -/

namespace Sys2Proof

/-- R89 and R81. A host command takes its operands from the port registers (R88), so its constructor has no arguments;
a wire frame carries its address and value. -/
inductive Instr where
  | lookup
  | fieldExtract
  | fieldCompose
  | write
  | writeField
  | read
  | readField
  | getShadow
  | rpmToVmax
  | vmaxToRpm
  | currentToCs
  | accelToRegister
  | durationToTzerowait
  | stop
  | rotate
  | moveTo
  | setGlobalScaling
  | setLinearAcceleration
  | setAdvancedAcceleration
  | setIrun
  | setIhold
  | getActualMotorPosition
  | getActualVelocity
  | setStealthChop
  | dgramWrite (a : Addr) (v : Word)
  | dgramReadreq (a : Addr)
  | dgramDummy
  deriving DecidableEq, Repr

/-- R21, R22: the operand registers a command may read. -/
inductive PortReg where
  | a
  | v
  | w
  | q0
  | q1
  | q2
  | q3
  deriving DecidableEq, Repr

/-- R90, the format table: the operand registers each command reads. A wire frame reads none. -/
def Instr.operands : Instr → List PortReg
  | .lookup => [.a]
  | .fieldExtract => [.a, .v]
  | .fieldCompose => [.a, .v, .w]
  | .write => [.a, .v]
  | .writeField => [.a, .v]
  | .read => [.a]
  | .readField => [.a]
  | .getShadow => [.a]
  | .rpmToVmax => [.q0]
  | .vmaxToRpm => [.v]
  | .currentToCs => [.q0]
  | .accelToRegister => [.q0]
  | .durationToTzerowait => [.q0]
  | .stop => []
  | .rotate => [.q0]
  | .moveTo => [.v, .q0]
  | .setGlobalScaling => [.q0]
  | .setLinearAcceleration => [.q0]
  | .setAdvancedAcceleration => [.q0, .q1, .q2, .q3]
  | .setIrun => [.q0]
  | .setIhold => [.q0]
  | .getActualMotorPosition => []
  | .getActualVelocity => []
  | .setStealthChop => [.v]
  | .dgramWrite _ _ => []
  | .dgramReadreq _ => []
  | .dgramDummy => []

/-- R89: the host commands, as opposed to the wire frames of R81. -/
def Instr.isCommand : Instr → Bool
  | .lookup => true
  | .fieldExtract => true
  | .fieldCompose => true
  | .write => true
  | .writeField => true
  | .read => true
  | .readField => true
  | .getShadow => true
  | .rpmToVmax => true
  | .vmaxToRpm => true
  | .currentToCs => true
  | .accelToRegister => true
  | .durationToTzerowait => true
  | .stop => true
  | .rotate => true
  | .moveTo => true
  | .setGlobalScaling => true
  | .setLinearAcceleration => true
  | .setAdvancedAcceleration => true
  | .setIrun => true
  | .setIhold => true
  | .getActualMotorPosition => true
  | .getActualVelocity => true
  | .setStealthChop => true
  | .dgramWrite _ _ => false
  | .dgramReadreq _ => false
  | .dgramDummy => false

/-- R89, column "result": the commands that write `RES` when they succeed. -/
def Instr.writesRes : Instr → Bool
  | .lookup => true
  | .fieldExtract => true
  | .fieldCompose => true
  | .read => true
  | .readField => true
  | .getShadow => true
  | .rpmToVmax => true
  | .currentToCs => true
  | .accelToRegister => true
  | .durationToTzerowait => true
  | .getActualMotorPosition => true
  | .write => false
  | .writeField => false
  | .vmaxToRpm => false
  | .stop => false
  | .rotate => false
  | .moveTo => false
  | .setGlobalScaling => false
  | .setLinearAcceleration => false
  | .setAdvancedAcceleration => false
  | .setIrun => false
  | .setIhold => false
  | .getActualVelocity => false
  | .setStealthChop => false
  | .dgramWrite _ _ => false
  | .dgramReadreq _ => false
  | .dgramDummy => false

/-- R89, column "result": the commands that write `QRES` when they succeed. -/
def Instr.writesQres : Instr → Bool
  | .vmaxToRpm => true
  | .getActualVelocity => true
  | .lookup => false
  | .fieldExtract => false
  | .fieldCompose => false
  | .write => false
  | .writeField => false
  | .read => false
  | .readField => false
  | .getShadow => false
  | .rpmToVmax => false
  | .currentToCs => false
  | .accelToRegister => false
  | .durationToTzerowait => false
  | .stop => false
  | .rotate => false
  | .moveTo => false
  | .setGlobalScaling => false
  | .setLinearAcceleration => false
  | .setAdvancedAcceleration => false
  | .setIrun => false
  | .setIhold => false
  | .getActualMotorPosition => false
  | .setStealthChop => false
  | .dgramWrite _ _ => false
  | .dgramReadreq _ => false
  | .dgramDummy => false

end Sys2Proof
end

