-- ==== Sys2Proof/Machine/State.lean ====
section
/-! DEFINITION. The state of one block instance (spec/10_state.md R20 to R44) with its environment's inputs and the
observed bus events as plain data beside it, the ways a step can stop, and the state after reset. -/

namespace Sys2Proof.Machine

open Sys2Proof

/-- spec/60_exceptions.md R230: the five error kinds a command can end with. -/
inductive ErrKind where
  | transferFailed
  | registerAccessFailed
  | invalidParameter
  | timeout
  | notImplemented
  deriving DecidableEq, Repr

/-- R26: the phase within a sub-operation. -/
inductive Phase where
  | check
  | sel1
  | xfer1
  | dsel1
  | sel2
  | xfer2
  | dsel2
  | done
  deriving DecidableEq, Repr

/-- R26: the sequencer state, the block's program counter: idle, or opcode, sub-operation and phase of the command in
progress. -/
inductive Seq where
  | idle
  | run (op : Byte) (k : Nat) (ph : Phase)
  deriving DecidableEq, Repr

/-- R40: one frame pair, the transmit frame the block built and what the transport answered to it. -/
structure Transaction where
  tx : Frame
  ok : Bool
  rx : Frame
  deriving DecidableEq, Repr

/-- R51, R130: a transport event. A transfer carries its five transmit bytes and the timeout handed to the transport. -/
inductive Event where
  | select
  | transfer (tx : Frame) (timeout : Nat)
  | deselect
  deriving DecidableEq, Repr

/-- What the host may do to the block (R21, R22, R88, R260). `issue` is R88's issue event with the command seen as one step;
`start` is the same event with the command left to the sequencer's phases (R27; notes/assumptions/9.md). `frame` is the
model's own: a wire frame of the opcode table handed to the bus interface by itself (notes/assumptions/5.md). -/
inductive HostAction where
  | setOp (x : Byte)
  | setA (x : Word)
  | setV (x : Word)
  | setW (x : Word)
  | setQ0 (x : Quad)
  | setQ1 (x : Quad)
  | setQ2 (x : Quad)
  | setQ3 (x : Quad)
  | issue
  | start
  | reset
  | frame (f : Frame)
  deriving DecidableEq, Repr

/-- Why the machine is stuck. The block itself has no faults: an error of a command is a value in `ERR` and a next state
(R238). -/
inductive Fault where
  /-- Raised by `advance` in a sequencer state that R27 gives no next phase (for example `RUN(STOP, 0, SEL2)`). No accepted
  command reaches one. Safe: the model stops. -/
  | stuckSequencer
  deriving DecidableEq, Repr

/-- Why the model gives a situation no meaning. -/
inductive Refusal where
  /-- Raised by `exec`'s arm of an instruction that has no meaning yet. None at present. Safe. -/
  | notModelled (mnemonic : String)
  /-- Raised by a command, a frame, a port write or a reset while `SEQ` is not `IDLE` (R28, R260: "the model gives that
  no meaning (refuses it)"). A frame by itself, and its refusal, are the model's own
  (notes/assumptions/5.md). Safe. -/
  | busy
  /-- Raised when a frame that is none of the three of R81 is handed to the bus interface (R87: the block never sends
  one). Safe. -/
  | foreignFrame
  deriving DecidableEq, Repr

/-- R20: the state of one block instance, then the model's own fields for its environment. -/
structure State where
  /-- R6, R7, R9: the configuration, fixed before reset; no step changes it. -/
  cfg : Config
  /-- R21: `OP`. -/
  op : Byte
  /-- R21: `A`. -/
  a : Word
  /-- R21: `V`. -/
  v : Word
  /-- R21: `W`. -/
  w : Word
  /-- R22: `Q0`. -/
  q0 : Quad
  /-- R22: `Q1`. -/
  q1 : Quad
  /-- R22: `Q2`. -/
  q2 : Quad
  /-- R22: `Q3`. -/
  q3 : Quad
  /-- R23: the bits of `RES`. -/
  res : Word
  /-- R23: whether `RES` holds a value (it holds none after reset and after an error). -/
  resHeld : Bool
  /-- R23: the bits of `QRES`. -/
  qres : Quad
  /-- R23: whether `QRES` holds a value. -/
  qresHeld : Bool
  /-- R24: `ERR`. -/
  err : Byte
  /-- R26: `SEQ`. -/
  seq : Seq
  /-- R34: the shadow cache, 128 words. -/
  cache : Vector Word 128
  /-- R40: the transaction in hand. -/
  txn : Transaction
  /-- R52, the model's own: the transport's answers still to come, in order. -/
  answers : List Answer
  /-- R50, the model's own: the host's actions still to come, in order. -/
  host : List HostAction
  /-- R51, the model's own: the transport events emitted so far, in order. -/
  trace : List Event
  /-- The model's own: how many free values have been drawn. -/
  draws : Nat
  deriving DecidableEq, Repr

/-- R44: the state after reset of an instance built from `c`. Cache, `SEQ` and `ERR` are the spec's; the operand
registers, `RES`, `QRES` and the transaction are given no value there and are zero here, a DESIGN CHOICE
(notes/assumptions/1.md and 2.md). Reset emits no bus event. -/
def State.resetOf (c : Config) : State where
  cfg := c
  op := 0
  a := 0
  v := 0
  w := 0
  q0 := 0
  q1 := 0
  q2 := 0
  q3 := 0
  res := 0
  resHeld := false
  qres := 0
  qresHeld := false
  err := 0
  seq := .idle
  cache := Vector.replicate 128 0
  txn := { tx := ⟨0, 0, 0, 0, 0⟩, ok := true, rx := ⟨0, 0, 0, 0, 0⟩ }
  answers := []
  host := []
  trace := []
  draws := 0

/-- The machine right after reset, built from reference instance T (PRESUMED, notes/assumptions/3.md). -/
def State.reset : State :=
  State.resetOf Config.reference

end Sys2Proof.Machine
end

