-- ==== Sys2Proof/Machine/Flags.lean ====
section
/-! DEFINITION. The block's only status, `ERR` (spec/10_state.md R24, R29; spec/60_exceptions.md R230). There are no
condition codes, and a clamp sets no flag. -/

namespace Sys2Proof.Machine

/-- R230: the `ERR` code of each kind; 0 is success. -/
def ErrKind.code : ErrKind → Byte
  | .transferFailed => 1
  | .registerAccessFailed => 2
  | .invalidParameter => 3
  | .timeout => 4
  | .notImplemented => 5

/-- R24: the end of a command overwrites `ERR`. -/
def setErr (code : Byte) (s : State) : State :=
  { s with err := code }

/-- R238: a bracket is open in these phases, and its `Deselect` is owed. -/
def owesDeselect : Seq → Bool
  | .idle => false
  | .run _ _ .check => false
  | .run _ _ .sel1 => false
  | .run _ _ .xfer1 => true
  | .run _ _ .dsel1 => true
  | .run _ _ .sel2 => false
  | .run _ _ .xfer2 => true
  | .run _ _ .dsel2 => true
  | .run _ _ .done => false

end Sys2Proof.Machine
end

