-- ==== Sys2Proof/WellFormed.lean ====
section
/-! DEFINITION. Which terms of `Instr` stand for a word of their own. -/

namespace Sys2Proof

/-- R84: `DGRAM.DUMMY` "is bit-identical to `DGRAM.READREQ(0)`". One word has one reading: the all-zero frame is the
dummy, so a read request for address 0 is not a term of its own. DESIGN CHOICE, notes/assumptions/6.md. Every other
term is well formed: addresses are 7 bits and values 32 bits by their types (R80). -/
def Instr.wellFormed : Instr → Bool
  | .dgramReadreq a => a != 0
  | .dgramWrite _ _ => true
  | .dgramDummy => true
  | .lookup => true
  | .fieldExtract => true
  | .fieldCompose => true
  | .write => true
  | .writeField => true
  | .read => true
  | .readField => true
  | .getShadow => true
  | .rpmToVmax => true
  | .vmaxToRpm => true
  | .currentToCs => true
  | .accelToRegister => true
  | .durationToTzerowait => true
  | .stop => true
  | .rotate => true
  | .moveTo => true
  | .setGlobalScaling => true
  | .setLinearAcceleration => true
  | .setAdvancedAcceleration => true
  | .setIrun => true
  | .setIhold => true
  | .getActualMotorPosition => true
  | .getActualVelocity => true
  | .setStealthChop => true

end Sys2Proof
end

