-- ==== Sys2Proof/Decode.lean ====
section
/-! DEFINITION. The two encodings of spec/30_encoding.md: the 40-bit wire frames (R80 to R87) and the 8-bit host opcodes
(R88 to R92); the decoder, total on any bytes, and after it the encoder. -/

namespace Sys2Proof

/-! ## Words and bytes (spec/20_memory.md R53) -/

/-- R53: the four data bytes of a word, most significant first, as `b1` to `b4` behind an address byte. -/
def Frame.ofWord (b0 : Byte) (v : Word) : Frame where
  b0 := b0
  b1 := v.extractLsb' 24 8
  b2 := v.extractLsb' 16 8
  b3 := v.extractLsb' 8 8
  b4 := v.extractLsb' 0 8

/-- R53, R85: the word in bytes 1 to 4 of a frame; byte 0 is not looked at. -/
def Frame.word (f : Frame) : Word :=
  f.b1 ++ f.b2 ++ f.b3 ++ f.b4

/-- R80: the address byte, `(write ? 0x80 : 0x00) | (addr & 0x7F)`. -/
def addressByte (isWrite : Bool) (a : Addr) : Byte :=
  (if isWrite then 0x80 else 0x00) ||| (a.setWidth 8 &&& 0x7F)

/-! ## The three frames the block builds (R81) -/

/-- R82: `DGRAM.WRITE(a, v)`. -/
def Frame.write (a : Addr) (v : Word) : Frame :=
  Frame.ofWord (addressByte true a) v

/-- R83: `DGRAM.READREQ(a)`. The four payload bytes are zero (R81, decision D14 of the spec). -/
def Frame.readReq (a : Addr) : Frame :=
  Frame.ofWord (addressByte false a) 0

/-- R84: `DGRAM.DUMMY`, five zero bytes. -/
def Frame.dummy : Frame where
  b0 := 0x00
  b1 := 0x00
  b2 := 0x00
  b3 := 0x00
  b4 := 0x00

/-! ## Decoding -/

/-- Why the decoder gives no instruction. -/
inductive Reject where
  /-- R91: an opcode of no row. -/
  | reservedOpcode (op : Byte)
  /-- R87: a frame the block never builds (a read request with a payload). -/
  | foreignFrame (f : Frame)
  /-- R80, R88: neither one opcode byte nor five frame bytes. -/
  | wrongLength (n : Nat)
  deriving DecidableEq, Repr

/-- R89, the opcode map. -/
def commandTable : List (Byte × Instr) :=
  [(0x01, .lookup), (0x02, .fieldExtract), (0x03, .fieldCompose), (0x08, .write), (0x09, .writeField), (0x0A, .read),
   (0x0B, .readField), (0x0C, .getShadow)] ++
  [(0x10, .rpmToVmax), (0x11, .vmaxToRpm), (0x12, .currentToCs), (0x13, .accelToRegister),
   (0x14, .durationToTzerowait)] ++
  [(0x20, .stop), (0x21, .rotate), (0x22, .moveTo), (0x23, .setGlobalScaling), (0x24, .setLinearAcceleration),
   (0x25, .setAdvancedAcceleration), (0x26, .setIrun), (0x27, .setIhold), (0x28, .getActualMotorPosition),
   (0x29, .getActualVelocity), (0x2A, .setStealthChop)]

/-- R89, R91: the command of an opcode, all 8 bits matched; none for a reserved one. -/
def decodeCommand (op : Byte) : Option Instr :=
  (commandTable.find? fun row => row.1 == op).map Prod.snd

/-- R80 to R84: the frame as one of the three the block builds. Bit 7 of `b0` is the write flag; a read frame with a
payload is none of the three; the all-zero frame is the dummy (notes/assumptions/6.md). -/
def decodeFrame (f : Frame) : Option Instr :=
  if f.b0.msb then some (.dgramWrite (f.b0.setWidth 7) f.word)
  else if f.word != 0 then none
  else if f.b0 == 0 then some .dgramDummy
  else some (.dgramReadreq (f.b0.setWidth 7))

/-- Decoding, total on any bytes: one byte is a host opcode (R88), five bytes are a wire frame (R80). -/
def decode : List Byte → Except Reject Instr
  | [op] =>
    match decodeCommand op with
    | some i => .ok i
    | none => .error (.reservedOpcode op)
  | [b0, b1, b2, b3, b4] =>
    match decodeFrame ⟨b0, b1, b2, b3, b4⟩ with
    | some i => .ok i
    | none => .error (.foreignFrame ⟨b0, b1, b2, b3, b4⟩)
  | bytes => .error (.wrongLength bytes.length)

/-! ## Encoding -/

/-- The bytes of a frame in the order they are sent (R80). -/
def Frame.bytes (f : Frame) : List Byte :=
  [f.b0, f.b1, f.b2, f.b3, f.b4]

/-- R89 and R81: the bytes of an instruction. -/
def encode : Instr → List Byte
  | .lookup => [0x01]
  | .fieldExtract => [0x02]
  | .fieldCompose => [0x03]
  | .write => [0x08]
  | .writeField => [0x09]
  | .read => [0x0A]
  | .readField => [0x0B]
  | .getShadow => [0x0C]
  | .rpmToVmax => [0x10]
  | .vmaxToRpm => [0x11]
  | .currentToCs => [0x12]
  | .accelToRegister => [0x13]
  | .durationToTzerowait => [0x14]
  | .stop => [0x20]
  | .rotate => [0x21]
  | .moveTo => [0x22]
  | .setGlobalScaling => [0x23]
  | .setLinearAcceleration => [0x24]
  | .setAdvancedAcceleration => [0x25]
  | .setIrun => [0x26]
  | .setIhold => [0x27]
  | .getActualMotorPosition => [0x28]
  | .getActualVelocity => [0x29]
  | .setStealthChop => [0x2A]
  | .dgramWrite a v => (Frame.write a v).bytes
  | .dgramReadreq a => (Frame.readReq a).bytes
  | .dgramDummy => Frame.dummy.bytes

/-! ## The opcode table's numbering -/

/-- R80's numbering of a frame: bit 39 is the write flag, bits 38 to 32 the address, bits 31 to 0 the data. -/
def Frame.ofNat (w : Nat) : Frame :=
  Frame.ofWord (BitVec.ofNat 8 (w / 2 ^ 32)) (BitVec.ofNat 32 w)

/-- The bytes of an opcode-table row's word: 8 bits are an opcode, 40 bits a frame with `b0` first; the table has no other
length (notes/assumptions/7.md). -/
def tableBytes (nbits w : Nat) : List Byte :=
  if nbits = 8 then [BitVec.ofNat 8 w]
  else if nbits = 40 then (Frame.ofNat w).bytes
  else []

/-- The instruction the decoder reads from a table word of `nbits` bits. -/
def decodeTableWord (nbits w : Nat) : Option Instr :=
  match decode (tableBytes nbits w) with
  | .ok i => some i
  | .error _ => none

end Sys2Proof
end

