-- ==== Sys2Proof/Machine/Operands.lean ====
section
/-! DEFINITION. Operand forms: addresses and the three ways a bus access names one (spec/41_communicator.md R145), the
field unit's functions (spec/40_field_unit.md R110 to R114), quantities (spec/10_state.md R22) and signed readings. -/

namespace Sys2Proof.Machine

open Sys2Proof

/-! ## Addresses -/

/-- R55: an operand word as a chip register address; none above 127. -/
def addrOf (a : Word) : Option Addr :=
  if a.toNat ≤ 127 then some (a.setWidth 7) else none

/-- R145 (c): a role constant as the operand of a register sub-operation. -/
def fixedAddr (a : Addr) : Word :=
  a.setWidth 32

/-- R110: `lookup(a)`: the descriptor of a known address; none where the rule raises InvalidParameter. -/
def findRegister (c : ConfigData) (a : Word) : Option RegisterDescriptor :=
  match addrOf a with
  | some r => c.register? r
  | none => none

/-- R111: `field(f)`: the descriptor of a known field id; none where the rule raises InvalidParameter. -/
def findField (c : ConfigData) (f : Word) : Option FieldDescriptor :=
  c.field? f

/-! ## Fields -/

/-- R112: `mask(F) = (2^F.width - 1) * 2^F.offset`. -/
def fieldMask (F : FieldDescriptor) : Word :=
  BitVec.ofNat 32 ((2 ^ F.width - 1) * 2 ^ F.offset)

/-- R113: `extract(F, w) = (w & mask(F)) >> F.offset`. -/
def fieldExtract (F : FieldDescriptor) (w : Word) : Word :=
  (w &&& fieldMask F) >>> F.offset

/-- R114: `compose(F, old, v) = (old & ~mask(F)) | ((v << F.offset) & mask(F))`. -/
def fieldCompose (F : FieldDescriptor) (old v : Word) : Word :=
  (old &&& ~~~(fieldMask F)) ||| ((v <<< F.offset) &&& fieldMask F)

/-- R115: a descriptor as a port value: bit 2 volatile, bit 1 writable, bit 0 readable. -/
def descriptorCode (d : RegisterDescriptor) : Word :=
  (BitVec.ofBool d.volatile ++ BitVec.ofBool d.writable ++ BitVec.ofBool d.readable).setWidth 32

/-! ## Quantities and signed readings -/

/-- R22: `q(Qi) = signed64(x[Qi]) / 2^32`. -/
def quantity (x : Quad) : Rat :=
  (x.toInt : Rat) / 2 ^ 32

/-- R90: `V[0]`, the flag operand; the other bits are ignored. -/
def flagOf (v : Word) : Word :=
  v &&& 1

/-- R210: sign-extend from bit 23 (mask 0x800000, extension 0xFF000000); bits 31 to 24 are kept where bit 23 is clear. -/
def signExtend24 (w : Word) : Word :=
  if w &&& 0x00800000 ≠ 0 then w ||| 0xFF000000 else w

/-- R210: `m = |signed32(e)|`, 0 to 2^31. -/
def velocityMagnitude (w : Word) : Nat :=
  (signExtend24 w).toInt.natAbs

/-! ## Ramp modes (R14, R208) -/

/-- Positioning = 0. -/
def rampPositioning : Word := 0

/-- VelocityPositive = 1. -/
def rampVelocityPositive : Word := 1

/-- VelocityNegative = 2. -/
def rampVelocityNegative : Word := 2

/-- R193: the mode `ROTATE` writes, zero treated as positive. -/
def rotateMode (rpm : Rat) : Word :=
  if 0 ≤ rpm then rampVelocityPositive else rampVelocityNegative

end Sys2Proof.Machine
end

