-- ==== Sys2Proof/Machine/Quantity.lean ====
section
/-! DEFINITION. The quantity converter's five functions over exact rationals (spec/42_converter.md R160 to R176) and the
global scaling of R197. Pure: they read the configuration and their operand and nothing else (R173). -/

namespace Sys2Proof.Machine

open Sys2Proof

/-! ## The named roundings (spec/00_scope.md R11) -/

/-- R11: the integer part, rounded toward zero. -/
def trunc (x : Rat) : Int :=
  x.num.tdiv x.den

/-- R11: the nearest integer, a tie going away from zero. -/
def roundAway (x : Rat) : Int :=
  if 0 ≤ x then (x + 1 / 2).floor else -((-x + 1 / 2).floor)

/-- R11: `clamp(x, lo, hi)` on unbounded integers. -/
def clampInt (x lo hi : Int) : Int :=
  if x < lo then lo else if hi < x then hi else x

/-- R11: `clamp(x, lo, hi)` on rationals. -/
def clampRat (x lo hi : Rat) : Rat :=
  if x < lo then lo else if hi < x then hi else x

/-! ## Velocity -/

/-- R162: `vmax(rpm) = trunc(velocity_hz * 2^24 / CLOCK_HZ)` with `velocity_hz = rpm * FULL_STEPS * 256 / 60`. -/
def vmaxOf (c : ConfigData) (rpm : Rat) : Int :=
  trunc (rpm * c.fullSteps * 256 / 60 * 2 ^ 24 / c.clockHz)

/-- R164: `rpm(reg) = reg * CLOCK_HZ * 60 / (2^24 * FULL_STEPS * 256)`, exact. -/
def rpmOf (c : ConfigData) (reg : Nat) : Rat :=
  reg * c.clockHz * 60 / (2 ^ 24 * c.fullSteps * 256)

/-- R164: the Q31.32 image of a speed, `floor(r * 2^32)`, before its range is looked at. -/
def rpmImage (c : ConfigData) (reg : Nat) : Int :=
  (rpmOf c reg * 2 ^ 32).floor

/-! ## Current -/

/-- The largest `n <= bound` with `n^2 <= y`. -/
def rootUpTo (y : Rat) : Nat → Nat
  | 0 => 0
  | n + 1 => if ((n + 1 : Nat) : Rat) ^ 2 ≤ y then n + 1 else rootUpTo y n

/-- R167 by R168's exact evaluation: with `x = amps * R_SENSE * 32 / (13/40)`, 0 where `x <= 0`; else `n` is the largest
integer with `n^2 <= 2 * x^2` and the result `clamp(n - 1, 0, 31)`. The search for `n` stops at 32: every larger `n` has
the same clamped result. -/
def csOf (c : ConfigData) (amps : Rat) : Int :=
  let x := amps * c.rSense * 32 / (13 / 40)
  if x ≤ 0 then 0 else clampInt ((rootUpTo (2 * x ^ 2) 32 : Int) - 1) 0 31

/-! ## Acceleration, duration, scaling -/

/-- R169: `areg(accel) = clamp(trunc(accel * 2^41 / CLOCK_HZ^2), 1, 65535)`. -/
def aregOf (c : ConfigData) (accel : Rat) : Int :=
  clampInt (trunc (accel * 2 ^ 41 / c.clockHz ^ 2)) 1 65535

/-- R171: `tzw(seconds) = clamp(trunc(seconds * CLOCK_HZ / 2^9), 0, 65535)`. -/
def tzwOf (c : ConfigData) (seconds : Rat) : Int :=
  clampInt (trunc (seconds * c.clockHz / 2 ^ 9)) 0 65535

/-- R197: `round(clamp(factor, 0, 1) * 256)`, 0 to 256. -/
def globalScale (factor : Rat) : Int :=
  roundAway (clampRat factor 0 1 * 256)

end Sys2Proof.Machine
end

