-- ==== Sys2Proof/Machine/Ops.lean ====
section
/-! DEFINITION. The shared operations every meaning is written over: free values, bus events, brackets and the two bus
primitives (spec/41_communicator.md R130 to R134), cache accesses, the communicator's sub-operations (R135 to R143), results,
and the end of a command, with success (spec/10_state.md R27) or with an error (spec/60_exceptions.md R238). -/

namespace Sys2Proof.Machine

open Sys2Proof

/-! ## Sub-operations that can fail -/

/-- What a sub-operation ends with: a result, or the error kind that ends the enclosing command (R12, R142); the state as
the sub-operation leaves it either way. -/
inductive Reply (α : Type) where
  | done (val : α) (s : State)
  | err (kind : ErrKind) (s : State)

/-- R12, R240: `r <- OP(...)?`: an error ends the enclosing command with the same kind; otherwise go on with the result. -/
def Reply.andThen {α β : Type} (r : Reply α) (f : α → State → Reply β) : Reply β :=
  match r with
  | .done x s => f x s
  | .err kind s => .err kind s

/-! ## Free values -/

/-- R12: `draw32()`. -/
def drawWord (s : State) : Word × State :=
  (Config.freeWord s.draws, { s with draws := s.draws + 1 })

/-- R164: 64 arbitrary bits. -/
def drawQuad (s : State) : Quad × State :=
  (Config.freeQuad s.draws, { s with draws := s.draws + 1 })

/-- R52: the transport's next answer, a free input. -/
def takeAnswer (s : State) : Answer × State :=
  match s.answers with
  | ans :: rest => (ans, { s with answers := rest })
  | [] => (Config.freeAnswer s.draws, { s with draws := s.draws + 1 })

/-! ## Bus events -/

/-- R51: record a transport event. -/
def emit (e : Event) (s : State) : State :=
  { s with trace := s.trace ++ [e] }

/-- R130: `Transfer(tx)`: the frame and the timeout go out, the answer comes in (R40). -/
def transfer (tx : Frame) (s : State) : State :=
  let (ans, s') := takeAnswer s
  emit (.transfer tx s.cfg.xferTimeout) { s' with txn := { tx := tx, ok := ans.ok, rx := ans.rx } }

/-- R131: one bracket, `Select; Transfer(tx); Deselect`, whatever the answer. -/
def bracket (tx : Frame) (s : State) : State :=
  emit .deselect (transfer tx (emit .select s))

/-- R133: `MemWrite(a, 4, v)`. -/
def memWrite (a : Addr) (v : Word) (s : State) : Reply Unit :=
  let s1 := bracket (Frame.write a v) s
  if s1.txn.ok then .done () s1 else .err .transferFailed s1

/-- R134: `MemRead(a, 4)`: the second transaction is not attempted after a failed first one. -/
def memRead (a : Addr) (s : State) : Reply Word :=
  let s1 := bracket (Frame.readReq a) s
  if s1.txn.ok then
    let s2 := bracket Frame.dummy s1
    if s2.txn.ok then .done s2.txn.rx.word s2 else .err .transferFailed s2
  else .err .transferFailed s1

/-! ## The shadow cache (R34, R35) -/

/-- R12: `cache[a]`. -/
def cacheAt (s : State) (a : Addr) : Word :=
  s.cache[a.toNat]

/-- R12: `cache[a] <- v`. -/
def setCache (a : Addr) (v : Word) (s : State) : State :=
  { s with cache := s.cache.set a.toNat v }

/-! ## Lookups (R110, R111) -/

/-- R110: `lookup(a)?`. -/
def lookup (a : Word) (s : State) : Reply RegisterDescriptor :=
  match findRegister s.cfg.toConfigData a with
  | some d => .done d s
  | none => .err .invalidParameter s

/-- R111: `field(f)?`. -/
def field (f : Word) (s : State) : Reply FieldDescriptor :=
  match findField s.cfg.toConfigData f with
  | some F => .done F s
  | none => .err .invalidParameter s

/-! ## The communicator's sub-operations -/

/-- R135, up to the bus: lookup, access check, cache update. The result is the register's address. -/
def acceptWrite (a v : Word) (s : State) : Reply Addr :=
  (lookup a s).andThen fun d s =>
    if d.writable then .done d.address (setCache d.address v s) else .err .invalidParameter s

/-- R135: `write(register, value)`. -/
def writeReg (a v : Word) (s : State) : Reply Unit :=
  (acceptWrite a v s).andThen fun r s => memWrite r v s

/-- R137, up to the bus: field, lookup, access check, composition on the cached value, cache update. The result is the
register's address and the composed word. DESIGN CHOICE: this holds of a field of `REG_RAMPMODE` too, though R208 does not list
field writes among what changes the ramp mode (notes/assumptions/18.md). -/
def acceptFieldWrite (f v : Word) (s : State) : Reply (Addr × Word) :=
  (field f s).andThen fun F s =>
    (lookup (fixedAddr F.reg) s).andThen fun d s =>
      if d.writable then
        let new := fieldCompose F (cacheAt s F.reg) v
        .done (F.reg, new) (setCache F.reg new s)
      else .err .invalidParameter s

/-- R137: `write_field(field, value)`. -/
def writeField (f v : Word) (s : State) : Reply Unit :=
  (acceptFieldWrite f v s).andThen fun p s => memWrite p.1 p.2 s

/-- R139: `read(register)`: from the chip where the register is volatile or ReadOnly, else from the cache with no bus
event. -/
def readReg (a : Word) (s : State) : Reply Word :=
  (lookup a s).andThen fun d s =>
    if d.hwRead then memRead d.address s else .done (cacheAt s d.address) s

/-- R141: `read_field(field)`: `read` of the owning register, then `extract`. -/
def readField (f : Word) (s : State) : Reply Word :=
  (field f s).andThen fun F s =>
    (readReg (fixedAddr F.reg) s).andThen fun w s => .done (fieldExtract F w) s

/-! ## Results (R23) -/

/-- R23: `x[RES] <- v`. -/
def setRes (v : Word) (s : State) : State :=
  { s with res := v, resHeld := true }

/-- R23: `x[QRES] <- v`. -/
def setQres (v : Quad) (s : State) : State :=
  { s with qres := v, qresHeld := true }

/-- R162, R163: the register word of a speed: `vmax(rpm)` where it is 0 to 2^32 - 1, else a free word. -/
def velocityWord (rpm : Rat) (s : State) : Word × State :=
  let n := vmaxOf s.cfg.toConfigData rpm
  if 0 ≤ n ∧ n ≤ 2 ^ 32 - 1 then (BitVec.ofInt 32 n, s) else drawWord s

/-- R164: the Q31.32 word of a register value's speed: `floor(rpm * 2^32)` where it is at most 2^63 - 1, else free bits. -/
def speedQuad (reg : Nat) (s : State) : Quad × State :=
  let m := rpmImage s.cfg.toConfigData reg
  if m ≤ 2 ^ 63 - 1 then (BitVec.ofInt 64 m, s) else drawQuad s

/-! ## The end of a command -/

/-- R238, `raise <Kind>`, the block's one exception entry: an owed `Deselect` first, then `ERR` and `SEQ`; `RES` and
`QRES` hold no value afterwards (R23), so their bits are free. Nothing is saved and there is no return (R241). -/
def raise (kind : ErrKind) (s : State) : State :=
  let s1 := if owesDeselect s.seq then emit .deselect s else s
  { setErr kind.code s1 with
    seq := .idle
    res := Config.freeWord s1.draws
    resHeld := false
    qres := Config.freeQuad s1.draws
    qresHeld := false
    draws := s1.draws + 1 }

/-- R27 (c): success: `x[ERR] <- 0` and `seq <- IDLE`. -/
def succeed (s : State) : State :=
  { setErr 0 s with seq := .idle }

/-- R27: the end of a command, after its body. -/
def finish (r : Reply Unit) : State :=
  match r with
  | .done _ s => succeed s
  | .err kind s => raise kind s

/-- R27, R28: a command is accepted only in `IDLE`, and is complete before the next one; the model refuses it otherwise. -/
def command (body : State → Reply Unit) (s : State) : Host.Outcome State Fault Refusal :=
  match s.seq with
  | .idle => .next (finish (body s))
  | .run _ _ _ => .refused .busy

end Sys2Proof.Machine
end

