-- ==== Sys2Proof/Machine/Communicator.lean ====
section
/-! DEFINITION. The communicator's five commands (spec/41_communicator.md R135 to R143). -/

namespace Sys2Proof.Machine

open Sys2Proof

/-- R135: `WRITE`. -/
def execWrite (s : State) : Host.Outcome State Fault Refusal :=
  command (fun s => writeReg s.a s.v s) s

/-- R137: `WRITE_FIELD`. -/
def execWriteField (s : State) : Host.Outcome State Fault Refusal :=
  command (fun s => writeField s.a s.v s) s

/-- R139: `READ`. -/
def execRead (s : State) : Host.Outcome State Fault Refusal :=
  command (fun s => (readReg s.a s).andThen fun x s => .done () (setRes x s)) s

/-- R141: `READ_FIELD`. -/
def execReadField (s : State) : Host.Outcome State Fault Refusal :=
  command (fun s => (readField s.a s).andThen fun x s => .done () (setRes x s)) s

/-- R143: `get_shadow(address)`: the range is checked, the registry is not consulted. -/
def shadow (a : Word) (s : State) : Reply Word :=
  match addrOf a with
  | some r => .done (cacheAt s r) s
  | none => .err .registerAccessFailed s

/-- R143: `GET_SHADOW`. -/
def execGetShadow (s : State) : Host.Outcome State Fault Refusal :=
  command (fun s => (shadow s.a s).andThen fun x s => .done () (setRes x s)) s

end Sys2Proof.Machine
end

