-- ==== Sys2Proof/Machine/Converter.lean ====
section
/-! DEFINITION. The converter's five commands at the port (spec/42_converter.md R162 to R171). None can fail, touches the
cache or emits a bus event (R161). -/

namespace Sys2Proof.Machine

open Sys2Proof

/-- R162, R163: `RES` becomes the register word of `Q0` rpm. -/
def deliverVelocity (s : State) : State :=
  let (x, s1) := velocityWord (quantity s.q0) s
  setRes x s1

/-- R164: `QRES` becomes the speed of a register value. -/
def deliverSpeed (reg : Nat) (s : State) : State :=
  let (x, s1) := speedQuad reg s
  setQres x s1

/-- R162: `RPM_TO_VMAX`. -/
def execRpmToVmax (s : State) : Host.Outcome State Fault Refusal :=
  command (fun s => .done () (deliverVelocity s)) s

/-- R164: `VMAX_TO_RPM`. -/
def execVmaxToRpm (s : State) : Host.Outcome State Fault Refusal :=
  command (fun s => .done () (deliverSpeed s.v.toNat s)) s

/-- R167: `CURRENT_TO_CS`. -/
def execCurrentToCs (s : State) : Host.Outcome State Fault Refusal :=
  command (fun s => .done () (setRes (BitVec.ofInt 32 (csOf s.cfg.toConfigData (quantity s.q0))) s)) s

/-- R169: `ACCEL_TO_REGISTER`. -/
def execAccelToRegister (s : State) : Host.Outcome State Fault Refusal :=
  command (fun s => .done () (setRes (BitVec.ofInt 32 (aregOf s.cfg.toConfigData (quantity s.q0))) s)) s

/-- R171: `DURATION_TO_TZEROWAIT`. -/
def execDurationToTzerowait (s : State) : Host.Outcome State Fault Refusal :=
  command (fun s => .done () (setRes (BitVec.ofInt 32 (tzwOf s.cfg.toConfigData (quantity s.q0))) s)) s

end Sys2Proof.Machine
end

