-- ==== Sys2Proof/Machine/Datagram.lean ====
section
/-! DEFINITION. The three wire frames by themselves (spec/30_encoding.md R82 to R84): one bracket each
(spec/41_communicator.md R131). They are the halves of the bus primitives R133 and R134: no cache access, no port register
written, and the answer is left in the transaction in hand (R40). -/

namespace Sys2Proof.Machine

open Sys2Proof

/-- R131: one frame in its bracket, while no command is in progress. DESIGN CHOICE (notes/assumptions/5.md): R28 says it of commands. -/
def sendFrame (f : Frame) (s : State) : Host.Outcome State Fault Refusal :=
  match s.seq with
  | .idle => .next (bracket f s)
  | .run _ _ _ => .refused .busy

/-- R82: `DGRAM.WRITE(a, v)`. -/
def execDgramWrite (a : Addr) (v : Word) (s : State) : Host.Outcome State Fault Refusal :=
  sendFrame (Frame.write a v) s

/-- R83: `DGRAM.READREQ(a)`. -/
def execDgramReadreq (a : Addr) (s : State) : Host.Outcome State Fault Refusal :=
  sendFrame (Frame.readReq a) s

/-- R84: `DGRAM.DUMMY`. -/
def execDgramDummy (s : State) : Host.Outcome State Fault Refusal :=
  sendFrame Frame.dummy s

end Sys2Proof.Machine
end

