-- ==== Sys2Proof/Machine/FieldUnit.lean ====
section
/-! DEFINITION. The field unit's three commands (spec/40_field_unit.md R115 to R117). None touches the cache or the bus. -/

namespace Sys2Proof.Machine

open Sys2Proof

/-- R115: `LOOKUP`. -/
def execLookup (s : State) : Host.Outcome State Fault Refusal :=
  command (fun s => (lookup s.a s).andThen fun d s => .done () (setRes (descriptorCode d) s)) s

/-- R116: `FIELD_EXTRACT`. -/
def execFieldExtract (s : State) : Host.Outcome State Fault Refusal :=
  command (fun s => (field s.a s).andThen fun F s => .done () (setRes (fieldExtract F s.v) s)) s

/-- R117: `FIELD_COMPOSE`. -/
def execFieldCompose (s : State) : Host.Outcome State Fault Refusal :=
  command (fun s => (field s.a s).andThen fun F s => .done () (setRes (fieldCompose F s.w s.v) s)) s

end Sys2Proof.Machine
end

