-- ==== Sys2Proof/Machine/Motion.lean ====
section
/-! DEFINITION. The motion sequencer's eleven commands (spec/43_motion_sequencer.md R190 to R212): fixed lists of
communicator sub-operations, ended by the first that fails (R191). -/

namespace Sys2Proof.Machine

open Sys2Proof

/-- R191: run a sub-operation, then the rest of the sequence where it succeeded. -/
def Reply.next (r : Reply Unit) (rest : State → Reply Unit) : Reply Unit :=
  r.andThen fun _ s => rest s

/-- R192 to R200: `write` to a role register. -/
def writeRole (role : RegisterRoles → Addr) (v : Word) (s : State) : Reply Unit :=
  writeReg (fixedAddr (role s.cfg.regs)) v s

/-- R193, R195: `write` of a speed's register word to a role register; a word out of range is free (R163). -/
def writeSpeed (role : RegisterRoles → Addr) (rpm : Rat) (s : State) : Reply Unit :=
  let (x, s1) := velocityWord rpm s
  writeRole role x s1

/-- R199, R200: `write` of `areg(q)` to a role register. -/
def writeAccel (role : RegisterRoles → Addr) (x : Quad) (s : State) : Reply Unit :=
  writeRole role (BitVec.ofInt 32 (aregOf s.cfg.toConfigData (quantity x))) s

/-- R203, R204: `write_field` of `cs(q(Q0))` to a role field. -/
def writeCurrent (role : FieldRoles → Word) (s : State) : Reply Unit :=
  writeField (role s.cfg.roleFields) (BitVec.ofInt 32 (csOf s.cfg.toConfigData (quantity s.q0))) s

/-- R192: `STOP`. -/
def execStop (s : State) : Host.Outcome State Fault Refusal :=
  command (fun s => writeRole RegisterRoles.vmax 0 s) s

/-- R193: `ROTATE`: mode, then the magnitude. -/
def execRotate (s : State) : Host.Outcome State Fault Refusal :=
  command (fun s =>
    (writeRole RegisterRoles.rampmode (rotateMode (quantity s.q0)) s).next fun s =>
      writeSpeed RegisterRoles.vmax |quantity s.q0| s) s

/-- R195: `MOVE_TO`: mode, speed (no absolute value), target. -/
def execMoveTo (s : State) : Host.Outcome State Fault Refusal :=
  command (fun s =>
    (writeRole RegisterRoles.rampmode rampPositioning s).next fun s =>
      (writeSpeed RegisterRoles.startSpeed (quantity s.q0) s).next fun s =>
        writeRole RegisterRoles.xtarget s.v s) s

/-- R197: `SET_GLOBAL_SCALING`. -/
def execSetGlobalScaling (s : State) : Host.Outcome State Fault Refusal :=
  command (fun s => writeRole RegisterRoles.globalScaler (BitVec.ofInt 32 (globalScale (quantity s.q0))) s) s

/-- R199: `SET_LINEAR_ACCELERATION`: one acceleration to A1, AMAX, DMAX, D1. -/
def execSetLinearAcceleration (s : State) : Host.Outcome State Fault Refusal :=
  command (fun s =>
    (writeAccel RegisterRoles.a1 s.q0 s).next fun s =>
      (writeAccel RegisterRoles.amax s.q0 s).next fun s =>
        (writeAccel RegisterRoles.dmax s.q0 s).next fun s =>
          writeAccel RegisterRoles.d1 s.q0 s) s

/-- R200: `SET_ADVANCED_ACCELERATION`: one acceleration for each phase, in the order A1, AMAX, DMAX, D1. -/
def execSetAdvancedAcceleration (s : State) : Host.Outcome State Fault Refusal :=
  command (fun s =>
    (writeAccel RegisterRoles.a1 s.q0 s).next fun s =>
      (writeAccel RegisterRoles.amax s.q1 s).next fun s =>
        (writeAccel RegisterRoles.dmax s.q2 s).next fun s =>
          writeAccel RegisterRoles.d1 s.q3 s) s

/-- R203: `SET_IRUN`. -/
def execSetIrun (s : State) : Host.Outcome State Fault Refusal :=
  command (fun s => writeCurrent FieldRoles.irun s) s

/-- R204: `SET_IHOLD`: the hold current, then the default hold delay. -/
def execSetIhold (s : State) : Host.Outcome State Fault Refusal :=
  command (fun s =>
    (writeCurrent FieldRoles.ihold s).next fun s =>
      writeField s.cfg.roleFields.iholddelay s.cfg.iholddelayDefault s) s

/-- R209: `GET_ACTUAL_MOTOR_POSITION`. -/
def execGetActualMotorPosition (s : State) : Host.Outcome State Fault Refusal :=
  command (fun s =>
    (readReg (fixedAddr s.cfg.regs.xactual) s).andThen fun w s => .done () (setRes w s)) s

/-- R210: `GET_ACTUAL_VELOCITY`: the magnitude in rpm. -/
def execGetActualVelocity (s : State) : Host.Outcome State Fault Refusal :=
  command (fun s =>
    (readReg (fixedAddr s.cfg.regs.vactual) s).andThen fun w s =>
      .done () (deliverSpeed (velocityMagnitude w) s)) s

/-- R207: `SET_STEALTH_CHOP`. -/
def execSetStealthChop (s : State) : Host.Outcome State Fault Refusal :=
  command (fun s => writeField s.cfg.roleFields.stealth (flagOf s.v) s) s

end Sys2Proof.Machine
end

