-- ==== Sys2Proof/Machine/Dispatch.lean ====
section
/-! DEFINITION. One arm for each row of spec/opcode_table.json: the meaning of every instruction. -/

namespace Sys2Proof.Machine

open Sys2Proof

/-- The meaning of an instruction (spec/30_encoding.md R89 and R81). -/
def exec (i : Instr) (s : State) : Host.Outcome State Fault Refusal :=
  match i with
  | .lookup => Sys2Proof.Machine.execLookup s
  | .fieldExtract => Sys2Proof.Machine.execFieldExtract s
  | .fieldCompose => Sys2Proof.Machine.execFieldCompose s
  | .write => Sys2Proof.Machine.execWrite s
  | .writeField => Sys2Proof.Machine.execWriteField s
  | .read => Sys2Proof.Machine.execRead s
  | .readField => Sys2Proof.Machine.execReadField s
  | .getShadow => Sys2Proof.Machine.execGetShadow s
  | .rpmToVmax => Sys2Proof.Machine.execRpmToVmax s
  | .vmaxToRpm => Sys2Proof.Machine.execVmaxToRpm s
  | .currentToCs => Sys2Proof.Machine.execCurrentToCs s
  | .accelToRegister => Sys2Proof.Machine.execAccelToRegister s
  | .durationToTzerowait => Sys2Proof.Machine.execDurationToTzerowait s
  | .stop => Sys2Proof.Machine.execStop s
  | .rotate => Sys2Proof.Machine.execRotate s
  | .moveTo => Sys2Proof.Machine.execMoveTo s
  | .setGlobalScaling => Sys2Proof.Machine.execSetGlobalScaling s
  | .setLinearAcceleration => Sys2Proof.Machine.execSetLinearAcceleration s
  | .setAdvancedAcceleration => Sys2Proof.Machine.execSetAdvancedAcceleration s
  | .setIrun => Sys2Proof.Machine.execSetIrun s
  | .setIhold => Sys2Proof.Machine.execSetIhold s
  | .getActualMotorPosition => Sys2Proof.Machine.execGetActualMotorPosition s
  | .getActualVelocity => Sys2Proof.Machine.execGetActualVelocity s
  | .setStealthChop => Sys2Proof.Machine.execSetStealthChop s
  | .dgramWrite a v => Sys2Proof.Machine.execDgramWrite a v s
  | .dgramReadreq a => Sys2Proof.Machine.execDgramReadreq a s
  | .dgramDummy => Sys2Proof.Machine.execDgramDummy s

end Sys2Proof.Machine
end

