-- ==== Sys2Proof/Machine/HostPort.lean ====
section
/-! DEFINITION. The host's side of the port besides issuing a command: writing the operand registers (spec/10_state.md R21,
R22), reading the results (R23, R24), and reset (R44, spec/70_reset_and_hazards.md R260). -/

namespace Sys2Proof.Machine

open Sys2Proof

/-- R28: the host may act on the port only while no command is in progress; the model refuses it otherwise. -/
def whenIdle (act : State → State) (s : State) : Host.Outcome State Fault Refusal :=
  match s.seq with
  | .idle => .next (act s)
  | .run _ _ _ => .refused .busy

/-- R88: the host writes `OP`. -/
def portWriteOp (x : Byte) (s : State) : Host.Outcome State Fault Refusal :=
  whenIdle (fun s => { s with op := x }) s

/-- R21: the host writes `A`. -/
def portWriteA (x : Word) (s : State) : Host.Outcome State Fault Refusal :=
  whenIdle (fun s => { s with a := x }) s

/-- R21: the host writes `V`. -/
def portWriteV (x : Word) (s : State) : Host.Outcome State Fault Refusal :=
  whenIdle (fun s => { s with v := x }) s

/-- R21: the host writes `W`. -/
def portWriteW (x : Word) (s : State) : Host.Outcome State Fault Refusal :=
  whenIdle (fun s => { s with w := x }) s

/-- R22: the host writes `Q0`. -/
def portWriteQ0 (x : Quad) (s : State) : Host.Outcome State Fault Refusal :=
  whenIdle (fun s => { s with q0 := x }) s

/-- R22: the host writes `Q1`. -/
def portWriteQ1 (x : Quad) (s : State) : Host.Outcome State Fault Refusal :=
  whenIdle (fun s => { s with q1 := x }) s

/-- R22: the host writes `Q2`. -/
def portWriteQ2 (x : Quad) (s : State) : Host.Outcome State Fault Refusal :=
  whenIdle (fun s => { s with q2 := x }) s

/-- R22: the host writes `Q3`. -/
def portWriteQ3 (x : Quad) (s : State) : Host.Outcome State Fault Refusal :=
  whenIdle (fun s => { s with q3 := x }) s

/-- R23: the host reads `RES`; where it holds no value the read returns any bits, and two such reads need not agree.
DESIGN CHOICE: a read is answered in every sequencer state (notes/assumptions/17.md). -/
def portReadRes (s : State) : Word × State :=
  if s.resHeld then (s.res, s) else drawWord s

/-- R23: the host reads `QRES`, as `portReadRes` reads `RES`.
DESIGN CHOICE: a read is answered in every sequencer state (notes/assumptions/17.md). -/
def portReadQres (s : State) : Quad × State :=
  if s.qresHeld then (s.qres, s) else drawQuad s

/-- R24: the host reads `ERR` as it stands; while a command runs that is the last command's code.
DESIGN CHOICE: a read is answered in every sequencer state (notes/assumptions/17.md). -/
def portReadErr (s : State) : Byte :=
  s.err

/-- R44, R260, R261: a reset between commands puts the reset state in place; the configuration, the environment's inputs
and the recorded events are not touched, and no bus event is emitted. -/
def resetInPlace (s : State) : State :=
  { State.resetOf s.cfg with answers := s.answers, host := s.host, trace := s.trace, draws := s.draws }

/-- R260: reset, refused while a command is in progress. -/
def portReset (s : State) : Host.Outcome State Fault Refusal :=
  whenIdle resetInPlace s

end Sys2Proof.Machine
end

