-- ==== Sys2Proof/Machine/Sequencer.lean ====
section
/-! DEFINITION. The protocol sequencer phase by phase (spec/10_state.md R26, R27): what one phase of the command in progress
does, and the run of a command from `RUN(op, 0, CHECK)` to `IDLE`. `exec` says what a command does as a whole; this machine
says the order in which it does it. -/

namespace Sys2Proof.Machine

open Sys2Proof

/-! ## The commands' sub-operations (spec/30_encoding.md R94) -/

/-- R94: how many sub-operations a command's sequence has; a command without a composite sequence is one. -/
def subCount : Instr → Nat
  | .lookup => 1
  | .fieldExtract => 1
  | .fieldCompose => 1
  | .write => 1
  | .writeField => 1
  | .read => 1
  | .readField => 1
  | .getShadow => 1
  | .rpmToVmax => 1
  | .vmaxToRpm => 1
  | .currentToCs => 1
  | .accelToRegister => 1
  | .durationToTzerowait => 1
  | .stop => 1
  | .rotate => 2
  | .moveTo => 3
  | .setGlobalScaling => 1
  | .setLinearAcceleration => 4
  | .setAdvancedAcceleration => 4
  | .setIrun => 1
  | .setIhold => 2
  | .getActualMotorPosition => 1
  | .getActualVelocity => 1
  | .setStealthChop => 1
  | .dgramWrite _ _ => 0
  | .dgramReadreq _ => 0
  | .dgramDummy => 0

/-- What a sub-operation does on the bus after its `CHECK` (R27 (b)). -/
inductive BusUse where
  | none
  | write
  | read
  deriving DecidableEq, Repr

/-- The bus use of a command's sub-operations where they use the bus at all (R133, R134). -/
def busUse : Instr → BusUse
  | .lookup => .none
  | .fieldExtract => .none
  | .fieldCompose => .none
  | .write => .write
  | .writeField => .write
  | .read => .read
  | .readField => .read
  | .getShadow => .none
  | .rpmToVmax => .none
  | .vmaxToRpm => .none
  | .currentToCs => .none
  | .accelToRegister => .none
  | .durationToTzerowait => .none
  | .stop => .write
  | .rotate => .write
  | .moveTo => .write
  | .setGlobalScaling => .write
  | .setLinearAcceleration => .write
  | .setAdvancedAcceleration => .write
  | .setIrun => .write
  | .setIhold => .write
  | .getActualMotorPosition => .read
  | .getActualVelocity => .read
  | .setStealthChop => .write
  | .dgramWrite _ _ => .none
  | .dgramReadreq _ => .none
  | .dgramDummy => .none

/-- R40: the transmit frame the block has built for the coming transfer. -/
def setTx (f : Frame) (s : State) : State :=
  { s with txn := { s.txn with tx := f } }

/-- `CHECK` of a `write` (R135, R136): the checks and the cache update; the frame is built. -/
def checkWrite (a v : Word) (s : State) : Reply Bool :=
  (acceptWrite a v s).andThen fun r s => .done true (setTx (Frame.write r v) s)

/-- `CHECK` of a `write_field` (R137). -/
def checkFieldWrite (f v : Word) (s : State) : Reply Bool :=
  (acceptFieldWrite f v s).andThen fun p s => .done true (setTx (Frame.write p.1 p.2) s)

/-- `CHECK` of a `read` (R139): the bus is used where the register is volatile or ReadOnly. -/
def checkRead (a : Word) (s : State) : Reply Bool :=
  (lookup a s).andThen fun d s =>
    if d.hwRead then .done true (setTx (Frame.readReq d.address) s) else .done false s

/-- `CHECK` of a `write` of a speed (R193, R195). -/
def checkSpeed (a : Word) (rpm : Rat) (s : State) : Reply Bool :=
  let (x, s1) := velocityWord rpm s
  checkWrite a x s1

/-- `CHECK` of a `write` of an acceleration (R199, R200). -/
def checkAccel (a : Word) (x : Quad) (s : State) : Reply Bool :=
  checkWrite a (BitVec.ofInt 32 (aregOf s.cfg.toConfigData (quantity x))) s

/-- `CHECK` of a `write_field` of a current scale (R203, R204). -/
def checkCurrent (f : Word) (s : State) : Reply Bool :=
  checkFieldWrite f (BitVec.ofInt 32 (csOf s.cfg.toConfigData (quantity s.q0))) s

/-- `CHECK` of sub-operation `k` of a command: the checks and the cache update, then whether the bus is used; none where
the command has no sub-operation `k`. -/
def subCheck (i : Instr) (k : Nat) (s : State) : Option (Reply Bool) :=
  match i, k with
  | .lookup, 0 => some ((lookup s.a s).andThen fun _ s => .done false s)
  | .fieldExtract, 0 => some ((field s.a s).andThen fun _ s => .done false s)
  | .fieldCompose, 0 => some ((field s.a s).andThen fun _ s => .done false s)
  | .write, 0 => some (checkWrite s.a s.v s)
  | .writeField, 0 => some (checkFieldWrite s.a s.v s)
  | .read, 0 => some (checkRead s.a s)
  | .readField, 0 => some ((field s.a s).andThen fun F s => checkRead (fixedAddr F.reg) s)
  | .getShadow, 0 => some ((shadow s.a s).andThen fun _ s => .done false s)
  | .rpmToVmax, 0 => some (.done false s)
  | .vmaxToRpm, 0 => some (.done false s)
  | .currentToCs, 0 => some (.done false s)
  | .accelToRegister, 0 => some (.done false s)
  | .durationToTzerowait, 0 => some (.done false s)
  | .stop, 0 => some (checkWrite (fixedAddr s.cfg.regs.vmax) 0 s)
  | .rotate, 0 => some (checkWrite (fixedAddr s.cfg.regs.rampmode) (rotateMode (quantity s.q0)) s)
  | .rotate, 1 => some (checkSpeed (fixedAddr s.cfg.regs.vmax) |quantity s.q0| s)
  | .moveTo, 0 => some (checkWrite (fixedAddr s.cfg.regs.rampmode) rampPositioning s)
  | .moveTo, 1 => some (checkSpeed (fixedAddr s.cfg.regs.startSpeed) (quantity s.q0) s)
  | .moveTo, 2 => some (checkWrite (fixedAddr s.cfg.regs.xtarget) s.v s)
  | .setGlobalScaling, 0 =>
    some (checkWrite (fixedAddr s.cfg.regs.globalScaler) (BitVec.ofInt 32 (globalScale (quantity s.q0))) s)
  | .setLinearAcceleration, 0 => some (checkAccel (fixedAddr s.cfg.regs.a1) s.q0 s)
  | .setLinearAcceleration, 1 => some (checkAccel (fixedAddr s.cfg.regs.amax) s.q0 s)
  | .setLinearAcceleration, 2 => some (checkAccel (fixedAddr s.cfg.regs.dmax) s.q0 s)
  | .setLinearAcceleration, 3 => some (checkAccel (fixedAddr s.cfg.regs.d1) s.q0 s)
  | .setAdvancedAcceleration, 0 => some (checkAccel (fixedAddr s.cfg.regs.a1) s.q0 s)
  | .setAdvancedAcceleration, 1 => some (checkAccel (fixedAddr s.cfg.regs.amax) s.q1 s)
  | .setAdvancedAcceleration, 2 => some (checkAccel (fixedAddr s.cfg.regs.dmax) s.q2 s)
  | .setAdvancedAcceleration, 3 => some (checkAccel (fixedAddr s.cfg.regs.d1) s.q3 s)
  | .setIrun, 0 => some (checkCurrent s.cfg.roleFields.irun s)
  | .setIhold, 0 => some (checkCurrent s.cfg.roleFields.ihold s)
  | .setIhold, 1 => some (checkFieldWrite s.cfg.roleFields.iholddelay s.cfg.iholddelayDefault s)
  | .getActualMotorPosition, 0 => some (checkRead (fixedAddr s.cfg.regs.xactual) s)
  | .getActualVelocity, 0 => some (checkRead (fixedAddr s.cfg.regs.vactual) s)
  | .setStealthChop, 0 => some (checkFieldWrite s.cfg.roleFields.stealth (flagOf s.v) s)
  | _, _ => none

/-! ## Results at the end of the last sub-operation -/

/-- R139: the word a `read` sub-operation ends with, once its transfers have succeeded: the second transaction's data
(R134), or the cache entry. -/
def readWord (a : Word) (s : State) : Word :=
  match findRegister s.cfg.toConfigData a with
  | some d => if d.hwRead then s.txn.rx.word else cacheAt s d.address
  | none => 0

/-- The command's result register, written when its last sub-operation is `DONE` (R23). -/
def deliver (i : Instr) (s : State) : State :=
  match i with
  | .lookup =>
    match findRegister s.cfg.toConfigData s.a with
    | some d => setRes (descriptorCode d) s
    | none => s
  | .fieldExtract =>
    match findField s.cfg.toConfigData s.a with
    | some F => setRes (fieldExtract F s.v) s
    | none => s
  | .fieldCompose =>
    match findField s.cfg.toConfigData s.a with
    | some F => setRes (fieldCompose F s.w s.v) s
    | none => s
  | .write => s
  | .writeField => s
  | .read => setRes (readWord s.a s) s
  | .readField =>
    match findField s.cfg.toConfigData s.a with
    | some F => setRes (fieldExtract F (readWord (fixedAddr F.reg) s)) s
    | none => s
  | .getShadow =>
    match addrOf s.a with
    | some r => setRes (cacheAt s r) s
    | none => s
  | .rpmToVmax => deliverVelocity s
  | .vmaxToRpm => deliverSpeed s.v.toNat s
  | .currentToCs => setRes (BitVec.ofInt 32 (csOf s.cfg.toConfigData (quantity s.q0))) s
  | .accelToRegister => setRes (BitVec.ofInt 32 (aregOf s.cfg.toConfigData (quantity s.q0))) s
  | .durationToTzerowait => setRes (BitVec.ofInt 32 (tzwOf s.cfg.toConfigData (quantity s.q0))) s
  | .stop => s
  | .rotate => s
  | .moveTo => s
  | .setGlobalScaling => s
  | .setLinearAcceleration => s
  | .setAdvancedAcceleration => s
  | .setIrun => s
  | .setIhold => s
  | .getActualMotorPosition => setRes (readWord (fixedAddr s.cfg.regs.xactual) s) s
  | .getActualVelocity => deliverSpeed (velocityMagnitude (readWord (fixedAddr s.cfg.regs.vactual) s)) s
  | .setStealthChop => s
  | .dgramWrite _ _ => s
  | .dgramReadreq _ => s
  | .dgramDummy => s

/-! ## One phase -/

/-- R27: `seq <- RUN(op, k, ph)`. -/
def goto (op : Byte) (k : Nat) (ph : Phase) (s : State) : State :=
  { s with seq := .run op k ph }

/-- The phase after a bracket: where the transfer failed, the command ends (R238 emits the owed `Deselect`); else the
`Deselect`, then `ph`. -/
def closeBracket (op : Byte) (k : Nat) (ph : Phase) (s : State) : State :=
  if s.txn.ok then goto op k ph (emit .deselect s) else raise .transferFailed s

/-- R27: one phase of a command in progress, for its decoded opcode. -/
def phaseStep (i : Instr) (op : Byte) (k : Nat) (ph : Phase) (s : State) : Host.Outcome State Fault Refusal :=
  match ph, busUse i with
  | .check, _ =>
    match subCheck i k s with
    | some (.done true s) => .next (goto op k .sel1 s)
    | some (.done false s) => .next (goto op k .done s)
    | some (.err kind s) => .next (raise kind s)
    | none => .fault .stuckSequencer
  | .sel1, .write => .next (goto op k .xfer1 (emit .select s))
  | .sel1, .read => .next (goto op k .xfer1 (emit .select s))
  | .xfer1, .write => .next (goto op k .dsel1 (transfer s.txn.tx s))
  | .xfer1, .read => .next (goto op k .dsel1 (transfer s.txn.tx s))
  | .dsel1, .write => .next (closeBracket op k .done s)
  | .dsel1, .read => .next (closeBracket op k .sel2 s)
  | .sel2, .read => .next (goto op k .xfer2 (emit .select s))
  | .xfer2, .read => .next (goto op k .dsel2 (transfer Frame.dummy s))
  | .dsel2, .read => .next (closeBracket op k .done s)
  | .done, _ =>
    if k + 1 < subCount i then .next (goto op (k + 1) .check s) else .next (succeed (deliver i s))
  | .sel1, .none => .fault .stuckSequencer
  | .xfer1, .none => .fault .stuckSequencer
  | .dsel1, .none => .fault .stuckSequencer
  | .sel2, .none => .fault .stuckSequencer
  | .sel2, .write => .fault .stuckSequencer
  | .xfer2, .none => .fault .stuckSequencer
  | .xfer2, .write => .fault .stuckSequencer
  | .dsel2, .none => .fault .stuckSequencer
  | .dsel2, .write => .fault .stuckSequencer

/-- R27: one phase of whatever command is in progress. A reserved opcode ends in its `CHECK` with NotImplemented (R91). -/
def advance (s : State) : Host.Outcome State Fault Refusal :=
  match s.seq with
  | .idle => .next s
  | .run op k ph =>
    match decodeCommand op with
    | some i => phaseStep i op k ph s
    | none =>
      match k, ph with
      | 0, .check => .next (raise .notImplemented s)
      | _, _ => .fault .stuckSequencer

/-- R27 (a): accepting the command in `OP`. -/
def accept (s : State) : State :=
  goto s.op 0 .check s

/-- Phases until `IDLE`, at most `n` of them; stuck where that is not enough. -/
def runToIdle : Nat → State → Host.Outcome State Fault Refusal
  | 0, s =>
    match s.seq with
    | .idle => .next s
    | .run _ _ _ => .fault .stuckSequencer
  | n + 1, s =>
    match s.seq with
    | .idle => .next s
    | .run _ _ _ =>
      match advance s with
      | .next s' => runToIdle n s'
      | .fault r => .fault r
      | .refused r => .refused r

end Sys2Proof.Machine
end

