-- ==== Sys2Proof/Machine/Issue.lean ====
section
/-! DEFINITION. Fetching and running what the host hands to the block: the opcode in `OP` at an issue event (spec/30_encoding.md
R88, R91), and the host's other actions. -/

namespace Sys2Proof.Machine

open Sys2Proof

/-- R91: a reserved opcode ends at once with NotImplemented. -/
def issueReserved (s : State) : Host.Outcome State Fault Refusal :=
  command (fun s => .err .notImplemented s) s

/-- R88, R89, R91: an issue event: the opcode in `OP` is decoded and its command run. -/
def issue (s : State) : Host.Outcome State Fault Refusal :=
  match decode [s.op] with
  | .ok i => exec i s
  | .error _ => issueReserved s

/-- A wire frame handed to the bus interface by itself (notes/assumptions/5.md); one that is none of R81's is refused
(R87). -/
def issueFrame (f : Frame) (s : State) : Host.Outcome State Fault Refusal :=
  match decode f.bytes with
  | .ok i => exec i s
  | .error _ => .refused .foreignFrame

/-- One action of the host. -/
def perform (act : HostAction) (s : State) : Host.Outcome State Fault Refusal :=
  match act with
  | .setOp x => portWriteOp x s
  | .setA x => portWriteA x s
  | .setV x => portWriteV x s
  | .setW x => portWriteW x s
  | .setQ0 x => portWriteQ0 x s
  | .setQ1 x => portWriteQ1 x s
  | .setQ2 x => portWriteQ2 x s
  | .setQ3 x => portWriteQ3 x s
  | .issue => issue s
  | .start => whenIdle accept s
  | .reset => portReset s
  | .frame f => issueFrame f s

/-- What `withFetchWord` places: the sequencer idle, and first of the host's actions a frame (40 bits), or `OP` written and
issued. -/
def placeWord (s : State) (nbits w : Nat) : State :=
  if nbits = 40 then { s with seq := .idle, host := .frame (Frame.ofNat w) :: s.host }
  else { s with seq := .idle, op := BitVec.ofNat 8 w, host := .issue :: s.host }

end Sys2Proof.Machine
end

