-- ==== Sys2Proof/Machine/Step.lean ====
section
/-! DEFINITION. One step of the machine: in `IDLE` the host's next action, an issued command run as a whole (spec/20_memory.md
R60); in `RUN` the next phase of the command in progress (spec/10_state.md R27). -/

namespace Sys2Proof.Machine

open Sys2Proof

/-- One step. With no action of the host at hand the block stays idle and keeps all state (spec/60_exceptions.md R250). -/
def step (s : State) : Host.Outcome State Fault Refusal :=
  match s.seq with
  | .run _ _ _ => advance s
  | .idle =>
    match s.host with
    | [] => .next s
    | act :: rest => perform act { s with host := rest }

/-- `s` with a table word where `step` takes its next instruction. -/
def State.withFetchWord (s : State) (nbits w : Nat) : State :=
  placeWord s nbits w

end Sys2Proof.Machine
end

