-- ==== Sys2Proof/Safety.lean ====
section
/-! DEFINITION. What counts as a safe run, in the terms claims use: the bus events are whole brackets of the block's own
frames (spec/41_communicator.md R131, spec/30_encoding.md R81), the sequencer is where a command can put it
(spec/10_state.md R27), the cache holds nothing for a register no write is accepted for (spec/93_implementation_defined.md
U19), and `ERR` is a code the block raises (spec/60_exceptions.md R230). -/

namespace Sys2Proof.Safety

open Sys2Proof Sys2Proof.Machine

/-! ## Events -/

/-- R131: a concatenation of triples `Select, Transfer(tx), Deselect`. -/
def bracketed : List Event → Bool
  | [] => true
  | .select :: .transfer _ _ :: .deselect :: rest => bracketed rest
  | _ => false

/-- R131: the events of one bracket. -/
def bracketEvents (c : ConfigData) (tx : Frame) : List Event :=
  [.select, .transfer tx c.xferTimeout, .deselect]

/-- R131 in every phase: whole brackets, and the open part of the one in progress. -/
def TraceFits (q : Seq) (t : List Event) : Prop :=
  match q with
  | .idle => bracketed t = true
  | .run _ _ .check => bracketed t = true
  | .run _ _ .sel1 => bracketed t = true
  | .run _ _ .sel2 => bracketed t = true
  | .run _ _ .done => bracketed t = true
  | .run _ _ .xfer1 => ∃ t0, bracketed t0 = true ∧ t = t0 ++ [.select]
  | .run _ _ .xfer2 => ∃ t0, bracketed t0 = true ∧ t = t0 ++ [.select]
  | .run _ _ .dsel1 => ∃ t0 tx n, bracketed t0 = true ∧ t = t0 ++ [.select, .transfer tx n]
  | .run _ _ .dsel2 => ∃ t0 tx n, bracketed t0 = true ∧ t = t0 ++ [.select, .transfer tx n]

/-- R81: one of the three frames the block builds. -/
def blockFrame (f : Frame) : Bool :=
  f == Frame.dummy || f == Frame.readReq (f.b0.setWidth 7) || f == Frame.write (f.b0.setWidth 7) f.word

/-- R81, R87: every frame sent is one of the three, with the configured timeout. -/
def FramesKnown (c : ConfigData) (t : List Event) : Prop :=
  ∀ tx n, Event.transfer tx n ∈ t → blockFrame tx = true ∧ n = c.xferTimeout

/-! ## Sequencer -/

/-- R27 (b): the phases of a sub-operation by its use of the bus. -/
def phaseLegal : BusUse → Phase → Bool
  | _, .check => true
  | _, .done => true
  | .write, .sel1 => true
  | .write, .xfer1 => true
  | .write, .dsel1 => true
  | .read, _ => true
  | _, _ => false

/-- R27: a sequencer state that an accepted command can be in. -/
def seqLegal : Seq → Bool
  | .idle => true
  | .run op k ph =>
    match decodeCommand op with
    | some i => decide (k < subCount i) && phaseLegal (busUse i) ph
    | none => k == 0 && ph == .check

/-- The phases a sub-operation still has before it, `DONE` included. -/
def phasesAhead : BusUse → Phase → Nat
  | .write, .check => 5
  | .write, .sel1 => 4
  | .write, .xfer1 => 3
  | .write, .dsel1 => 2
  | .read, .check => 8
  | .read, .sel1 => 7
  | .read, .xfer1 => 6
  | .read, .dsel1 => 5
  | .read, .sel2 => 4
  | .read, .xfer2 => 3
  | .read, .dsel2 => 2
  | .none, .check => 2
  | _, _ => 1

/-- R282: a bound on the phases a sequencer state still has before `IDLE`. -/
def phasesLeft : Seq → Nat
  | .idle => 0
  | .run op k ph =>
    match decodeCommand op with
    | some i => (subCount i - (k + 1)) * phasesAhead (busUse i) .check + phasesAhead (busUse i) ph
    | none => 1

/-- The frame built in `CHECK` is still to be sent in these phases. -/
def framePending : Seq → Bool
  | .run _ _ .sel1 => true
  | .run _ _ .xfer1 => true
  | _ => false

/-! ## Cache and status -/

/-- R30, R135: the registry knows the address and its register may be written. -/
def writableAt (c : ConfigData) (a : Addr) : Bool :=
  (c.register? a).any RegisterDescriptor.writable

/-- U19, R136: an entry no write is accepted for still holds 0. -/
def CacheGuarded (s : State) : Prop :=
  ∀ a : Addr, writableAt s.cfg.toConfigData a = false → cacheAt s a = 0

/-- R230: the codes the block writes to `ERR`; 4 and 6 to 255 are never among them. -/
def errKnown (e : Byte) : Bool :=
  e == 0 || e == 1 || e == 2 || e == 3 || e == 5

/-! ## The invariant -/

/-- What every step keeps. -/
structure Inv (s : State) : Prop where
  seqOk    : seqLegal s.seq = true
  events   : TraceFits s.seq s.trace
  frames   : FramesKnown s.cfg.toConfigData s.trace
  pending  : framePending s.seq = true → blockFrame s.txn.tx = true
  cacheOk  : CacheGuarded s
  errOk    : errKnown s.err = true

/-- The machine does not get stuck in its next step. -/
def Safe (s : State) : Prop :=
  ∀ r, step s ≠ .fault r

/-! ## What commands do, in the terms of the rules -/

/-- R133 with R136: the state after an accepted `write` of `x` to register `r`, its transfer answered with `ans`: the cache
entry, one bracket, the answer taken. -/
def afterWrite (r : Addr) (x : Word) (ans : Answer) (rest : List Answer) (s : State) : State :=
  { setCache r x s with
    txn := { tx := Frame.write r x, ok := ans.ok, rx := ans.rx }
    answers := rest
    trace := s.trace ++ bracketEvents s.cfg.toConfigData (Frame.write r x) }

/-- R134: the state after one read transaction (the request or the dummy) answered with `ans`: one bracket, the answer
taken, the cache as it was. -/
def afterRead (tx : Frame) (ans : Answer) (rest : List Answer) (s : State) : State :=
  { s with
    txn := { tx := tx, ok := ans.ok, rx := ans.rx }
    answers := rest
    trace := s.trace ++ bracketEvents s.cfg.toConfigData tx }

/-- R133 with R136 and R52: the same whatever the transport answers: its next answer, or a free value where the list is used
up (notes/assumptions/4.md). -/
def afterAnswered (r : Addr) (x : Word) (s : State) : State :=
  match s.answers with
  | ans :: rest => afterWrite r x ans rest s
  | [] => afterWrite r x (Config.freeAnswer s.draws) [] { s with draws := s.draws + 1 }

/-- R190: one write of a composite command: the register, the word, and how many free values were drawn for the word (one for
a speed out of range, R163; else none). -/
structure PlannedWrite where
  reg   : Addr
  word  : Word
  drawn : Nat

/-- R163: the free values of a planned write are drawn before anything else of it. -/
def PlannedWrite.draw (w : PlannedWrite) (s : State) : State :=
  { s with draws := s.draws + w.drawn }

/-- R190, R191, R233 (c): planned writes one after the other. A ReadOnly register ends the command with InvalidParameter and
nothing done by its write; a failed transfer ends it with TransferFailed and the write's cache entry standing; everything
before the end stands either way. -/
def writeSequence : List PlannedWrite → State → State
  | [], s => { s with err := 0 }
  | w :: more, s =>
    if writableAt s.cfg.toConfigData w.reg then
      let t := afterAnswered w.reg w.word (w.draw s)
      if t.txn.ok then writeSequence more t else raise .transferFailed t
    else raise .invalidParameter (w.draw s)

/-- The register a field belongs to, as a list of targets. -/
def fieldTarget (c : ConfigData) (f : Word) : List Addr :=
  match findField c f with
  | some F => [F.reg]
  | none => []

/-- R35, R145: the registers a command may write, and so the only cache entries it may change. The addresses are those the
meanings use. -/
def writeTargets (i : Instr) (s : State) : List Addr :=
  match i with
  | .write =>
    match findRegister s.cfg.toConfigData s.a with
    | some d => [d.address]
    | none => []
  | .writeField => fieldTarget s.cfg.toConfigData s.a
  | .stop => [s.cfg.regs.vmax]
  | .rotate => [s.cfg.regs.rampmode, s.cfg.regs.vmax]
  | .moveTo => [s.cfg.regs.rampmode, s.cfg.regs.startSpeed, s.cfg.regs.xtarget]
  | .setGlobalScaling => [s.cfg.regs.globalScaler]
  | .setLinearAcceleration => [s.cfg.regs.a1, s.cfg.regs.amax, s.cfg.regs.dmax, s.cfg.regs.d1]
  | .setAdvancedAcceleration => [s.cfg.regs.a1, s.cfg.regs.amax, s.cfg.regs.dmax, s.cfg.regs.d1]
  | .setIrun => fieldTarget s.cfg.toConfigData s.cfg.roleFields.irun
  | .setIhold =>
    fieldTarget s.cfg.toConfigData s.cfg.roleFields.ihold ++
      fieldTarget s.cfg.toConfigData s.cfg.roleFields.iholddelay
  | .setStealthChop => fieldTarget s.cfg.toConfigData s.cfg.roleFields.stealth
  | .lookup => []
  | .fieldExtract => []
  | .fieldCompose => []
  | .read => []
  | .readField => []
  | .getShadow => []
  | .rpmToVmax => []
  | .vmaxToRpm => []
  | .currentToCs => []
  | .accelToRegister => []
  | .durationToTzerowait => []
  | .getActualMotorPosition => []
  | .getActualVelocity => []
  | .dgramWrite _ _ => []
  | .dgramReadreq _ => []
  | .dgramDummy => []

/-- R236, the table: the `ERR` codes a command can end with (0 and the marked kinds). -/
def errorsOf : Instr → List Byte
  | .lookup => [0, 3]
  | .fieldExtract => [0, 3]
  | .fieldCompose => [0, 3]
  | .write => [0, 1, 3]
  | .writeField => [0, 1, 3]
  | .read => [0, 1, 3]
  | .readField => [0, 1, 3]
  | .getShadow => [0, 2]
  | .rpmToVmax => [0]
  | .vmaxToRpm => [0]
  | .currentToCs => [0]
  | .accelToRegister => [0]
  | .durationToTzerowait => [0]
  | .stop => [0, 1, 3]
  | .rotate => [0, 1, 3]
  | .moveTo => [0, 1, 3]
  | .setGlobalScaling => [0, 1, 3]
  | .setLinearAcceleration => [0, 1, 3]
  | .setAdvancedAcceleration => [0, 1, 3]
  | .setIrun => [0, 1, 3]
  | .setIhold => [0, 1, 3]
  | .getActualMotorPosition => [0, 1]
  | .getActualVelocity => [0, 1]
  | .setStealthChop => [0, 1, 3]
  | .dgramWrite _ _ => []
  | .dgramReadreq _ => []
  | .dgramDummy => []

/-- A host's write of one operand register (a word register takes the low 32 bits of `x`). -/
def setOperand (r : PortReg) (x : Quad) (s : State) : State :=
  match r with
  | .a => { s with a := x.setWidth 32 }
  | .v => { s with v := x.setWidth 32 }
  | .w => { s with w := x.setWidth 32 }
  | .q0 => { s with q0 := x }
  | .q1 => { s with q1 := x }
  | .q2 => { s with q2 := x }
  | .q3 => { s with q3 := x }

/-- An outcome with a change made to its next state. -/
def mapNext (f : State → State) (o : Host.Outcome State Fault Refusal) : Host.Outcome State Fault Refusal :=
  match o with
  | .next s => .next (f s)
  | .fault r => .fault r
  | .refused r => .refused r

end Sys2Proof.Safety
end

