-- ==== Sys2Proof/Certificates/Slice0/Obligations.lean ====
section
/-! DEFINITION. The statements for the provers. Each docstring names the rule of spec/ it formalises, or says that it rests
on a choice and where that choice is logged. -/

open Sys2Proof Sys2Proof.Machine Sys2Proof.Safety

/-! ## Encodings (spec/30_encoding.md) -/

/-- Decode and encode agree: every well-formed instruction is what its own bytes decode to, with every operand at every
value the encoding admits (R80 to R84, R89). -/
def Obligations.DecodeEncodeRoundTrip : Prop :=
  ∀ i : Instr, i.wellFormed = true → decode (encode i) = .ok i

/-- The other direction: whatever bytes decode, they are the bytes of the instruction they decode to, and that instruction is
well formed. No two words share an instruction. -/
def Obligations.DecodedBytesReencode : Prop :=
  ∀ (bytes : List Byte) (i : Instr), decode bytes = .ok i → encode i = bytes ∧ i.wellFormed = true

/-- Words written out from the spec's encodings: opcodes of each unit (R89) and the examples of R82 to R84. -/
def Obligations.SpecWordsDecode : Prop :=
  decode [0x01] = .ok .lookup ∧ decode [0x09] = .ok .writeField ∧ decode [0x0C] = .ok .getShadow ∧
  decode [0x14] = .ok .durationToTzerowait ∧ decode [0x25] = .ok .setAdvancedAcceleration ∧
  decode [0x2A] = .ok .setStealthChop ∧
  decode [0xA7, 0x00, 0x01, 0xD2, 0x08] = .ok (.dgramWrite 0x27 0x0001D208) ∧
  decode [0x21, 0x00, 0x00, 0x00, 0x00] = .ok (.dgramReadreq 0x21) ∧
  decode [0x00, 0x00, 0x00, 0x00, 0x00] = .ok .dgramDummy ∧
  decode [0x04] = .error (.reservedOpcode 0x04) ∧ decode [0xFF] = .error (.reservedOpcode 0xFF)

/-- R53: the data bytes of a frame are the word's bytes, most significant first, behind the address byte, which is sent first;
and a receive frame's word is put together the same way. -/
def Obligations.FrameDataMostSignificantFirst : Prop :=
  ∀ (a : Addr) (v : Word),
    (Frame.write a v).b1.toNat = v.toNat / 2 ^ 24 ∧
    (Frame.write a v).b2.toNat = v.toNat / 2 ^ 16 % 2 ^ 8 ∧
    (Frame.write a v).b3.toNat = v.toNat / 2 ^ 8 % 2 ^ 8 ∧
    (Frame.write a v).b4.toNat = v.toNat % 2 ^ 8 ∧
    (Frame.write a v).b0.toNat = 128 + a.toNat ∧
    (Frame.readReq a).b0.toNat = a.toNat ∧
    (∀ f : Frame, f.bytes = [f.b0, f.b1, f.b2, f.b3, f.b4] ∧
      f.word.toNat = f.b1.toNat * 2 ^ 24 + f.b2.toNat * 2 ^ 16 + f.b3.toNat * 2 ^ 8 + f.b4.toNat)

/-- R91 (the spec's decision D18): every opcode outside R89's map, issued in `IDLE`, ends at once with NotImplemented: no cache
access, no bus event, no answer taken, no result register written. -/
def Obligations.ReservedOpcodeEndsNotImplemented : Prop :=
  ∀ (s : State) (rest : List HostAction),
    s.seq = .idle → s.host = .issue :: rest →
    (s.op.toNat = 0x00 ∨ (0x04 ≤ s.op.toNat ∧ s.op.toNat ≤ 0x07) ∨ (0x0D ≤ s.op.toNat ∧ s.op.toNat ≤ 0x0F) ∨
      (0x15 ≤ s.op.toNat ∧ s.op.toNat ≤ 0x1F) ∨ 0x2B ≤ s.op.toNat) →
    ∃ t, step s = .next t ∧ t.err = 5 ∧ t.seq = .idle ∧ t.cache = s.cache ∧ t.trace = s.trace ∧ t.txn = s.txn ∧
      t.answers = s.answers ∧ t.resHeld = false ∧ t.qresHeld = false ∧ t.host = rest ∧ t.cfg = s.cfg ∧ t.op = s.op ∧
      t.a = s.a ∧ t.v = s.v ∧ t.w = s.w ∧ t.q0 = s.q0 ∧ t.q1 = s.q1 ∧ t.q2 = s.q2 ∧ t.q3 = s.q3

/-! ## Field unit (spec/40_field_unit.md) -/

/-- R112: the mask as a number, between 1 and 2^32 - 1, exactly `width` contiguous one bits from bit `offset`; width 32 gives
0xFFFFFFFF. -/
def Obligations.MaskIsContiguousOnes : Prop :=
  ∀ F : FieldDescriptor, F.fits = true →
    (fieldMask F).toNat = (2 ^ F.width - 1) * 2 ^ F.offset ∧ 1 ≤ (fieldMask F).toNat ∧
    (∀ b, (fieldMask F).getLsbD b = (decide (F.offset ≤ b) && decide (b < F.offset + F.width))) ∧
    (F.width = 32 → fieldMask F = 0xFFFFFFFF)

/-- R113: `extract` is `(w & mask(F)) >> F.offset`, a word below 2^width: the field's bits, zero-extended. -/
def Obligations.ExtractIsZeroExtendedField : Prop :=
  ∀ (F : FieldDescriptor) (w : Word), F.fits = true →
    fieldExtract F w = (w &&& fieldMask F) >>> F.offset ∧
    (fieldExtract F w).toNat < 2 ^ F.width ∧
    (fieldExtract F w).toNat = w.toNat / 2 ^ F.offset % 2 ^ F.width

/-- R114: `compose` and its laws (a) to (e). -/
def Obligations.ComposeLaws : Prop :=
  ∀ (F : FieldDescriptor) (old v : Word), F.fits = true →
    fieldCompose F old v = (old &&& ~~~(fieldMask F)) ||| ((v <<< F.offset) &&& fieldMask F) ∧
    (fieldExtract F (fieldCompose F old v)).toNat = v.toNat % 2 ^ F.width ∧
    fieldCompose F old v &&& ~~~(fieldMask F) = old &&& ~~~(fieldMask F) ∧
    (∀ G : FieldDescriptor, G.fits = true → fieldMask F &&& fieldMask G = 0 →
      fieldExtract G (fieldCompose F old v) = fieldExtract G old) ∧
    fieldCompose F old (fieldExtract F old) = old ∧
    (∀ u : Word, u.toNat % 2 ^ F.width = v.toNat % 2 ^ F.width → fieldCompose F old u = fieldCompose F old v)

/-- R110: `lookup(a)` gives the descriptor of an address that is in range and known, raises InvalidParameter for every other
address, and touches no state either way. -/
def Obligations.LookupOfAddress : Prop :=
  ∀ (s : State) (a : Word),
    (a.toNat ≤ 127 → ∀ d, s.cfg.register? (a.setWidth 7) = some d →
      lookup a s = .done d s ∧ d.address = a.setWidth 7) ∧
    (a.toNat ≤ 127 → s.cfg.register? (a.setWidth 7) = none → lookup a s = .err .invalidParameter s) ∧
    (127 < a.toNat → lookup a s = .err .invalidParameter s)

/-- R115: `LOOKUP`. The coding of the result is the spec's decision D30: bit 0 readable, bit 1 writable, bit 2 volatile, the
other bits 0. -/
def Obligations.LookupCommand : Prop :=
  decode [0x01] = .ok .lookup ∧
  ∀ s : State, s.seq = .idle →
    (∀ d, findRegister s.cfg.toConfigData s.a = some d →
      ∃ x : Word, exec .lookup s = .next { s with res := x, resHeld := true, err := 0 } ∧
        x.getLsbD 0 = d.readable ∧ x.getLsbD 1 = d.writable ∧ x.getLsbD 2 = d.volatile ∧
        ∀ b, 3 ≤ b → x.getLsbD b = false) ∧
    (findRegister s.cfg.toConfigData s.a = none → exec .lookup s = .next (raise .invalidParameter s))

/-- R116: `FIELD_EXTRACT`. -/
def Obligations.FieldExtractCommand : Prop :=
  decode [0x02] = .ok .fieldExtract ∧
  ∀ s : State, s.seq = .idle →
    (∀ F, findField s.cfg.toConfigData s.a = some F →
      exec .fieldExtract s =
        .next { s with res := (s.v &&& fieldMask F) >>> F.offset, resHeld := true, err := 0 }) ∧
    (findField s.cfg.toConfigData s.a = none → exec .fieldExtract s = .next (raise .invalidParameter s))

/-- R117: `FIELD_COMPOSE`. -/
def Obligations.FieldComposeCommand : Prop :=
  decode [0x03] = .ok .fieldCompose ∧
  ∀ s : State, s.seq = .idle →
    (∀ F, findField s.cfg.toConfigData s.a = some F →
      exec .fieldCompose s =
        .next { s with
          res := (s.w &&& ~~~(fieldMask F)) ||| ((s.v <<< F.offset) &&& fieldMask F), resHeld := true, err := 0 }) ∧
    (findField s.cfg.toConfigData s.a = none → exec .fieldCompose s = .next (raise .invalidParameter s))

/-! ## Communicator (spec/41_communicator.md) -/

/-- R82 to R84 with R131: each wire frame by itself is one bracket and takes one answer; nothing else changes. That a frame can
be sent by itself is the model's choice (notes/assumptions/5.md). -/
def Obligations.WireFramesSendOneBracket : Prop :=
  ∀ (s : State) (ans : Answer) (rest : List Answer), s.seq = .idle → s.answers = ans :: rest →
    (∀ a v, exec (.dgramWrite a v) s =
      .next (afterRead ⟨0x80 ||| a.setWidth 8, v.extractLsb' 24 8, v.extractLsb' 16 8, v.extractLsb' 8 8,
        v.extractLsb' 0 8⟩ ans rest s)) ∧
    (∀ a, exec (.dgramReadreq a) s = .next (afterRead ⟨a.setWidth 8, 0, 0, 0, 0⟩ ans rest s)) ∧
    exec .dgramDummy s = .next (afterRead ⟨0, 0, 0, 0, 0⟩ ans rest s)

/-- R135 with R136: `WRITE`: an unknown address or a ReadOnly register is refused with nothing done; else the cache entry is
written, one bracket sent, and the command ends as the transport answers. The order of the checks is the spec's decision D10,
the untouched cache of a refused write its decision D11. -/
def Obligations.WriteCommand : Prop :=
  decode [0x08] = .ok .write ∧
  ∀ s : State, s.seq = .idle →
    (findRegister s.cfg.toConfigData s.a = none → exec .write s = .next (raise .invalidParameter s)) ∧
    ∀ d, findRegister s.cfg.toConfigData s.a = some d →
      (d.writable = false → exec .write s = .next (raise .invalidParameter s)) ∧
      ∀ ans rest, s.answers = ans :: rest → d.writable = true →
        (ans.ok = true → exec .write s = .next { afterWrite d.address s.v ans rest s with err := 0 }) ∧
        (ans.ok = false → exec .write s = .next (raise .transferFailed (afterWrite d.address s.v ans rest s)))

/-- R137: `WRITE_FIELD`: the value is composed on the cached word of the owning register, and the result written as by
`write`. -/
def Obligations.WriteFieldCommand : Prop :=
  decode [0x09] = .ok .writeField ∧
  ∀ s : State, s.seq = .idle →
    (findField s.cfg.toConfigData s.a = none → exec .writeField s = .next (raise .invalidParameter s)) ∧
    ∀ F, findField s.cfg.toConfigData s.a = some F →
      (writableAt s.cfg.toConfigData F.reg = false → exec .writeField s = .next (raise .invalidParameter s)) ∧
      ∀ ans rest, s.answers = ans :: rest → writableAt s.cfg.toConfigData F.reg = true →
        (ans.ok = true → exec .writeField s =
          .next { afterWrite F.reg (fieldCompose F (cacheAt s F.reg) s.v) ans rest s with err := 0 }) ∧
        (ans.ok = false → exec .writeField s =
          .next (raise .transferFailed (afterWrite F.reg (fieldCompose F (cacheAt s F.reg) s.v) ans rest s)))

/-- R139: `READ`: from the cache with no bus event where the register is neither volatile nor ReadOnly; else two brackets and
the second answer's data, the cache neither read nor written; a failed transfer ends the command at once. A bracket for each
transaction, and no second one after a failed first, is R134 by the spec's decision D13. -/
def Obligations.ReadCommand : Prop :=
  decode [0x0A] = .ok .read ∧
  ∀ s : State, s.seq = .idle →
    (findRegister s.cfg.toConfigData s.a = none → exec .read s = .next (raise .invalidParameter s)) ∧
    ∀ d, findRegister s.cfg.toConfigData s.a = some d →
      (d.volatile = false → d.access ≠ .readOnly →
        exec .read s = .next { s with res := cacheAt s d.address, resHeld := true, err := 0 }) ∧
      ((d.volatile = true ∨ d.access = .readOnly) →
        (∀ ans1 rest, s.answers = ans1 :: rest → ans1.ok = false →
          exec .read s = .next (raise .transferFailed (afterRead (Frame.readReq d.address) ans1 rest s))) ∧
        (∀ ans1 ans2 rest, s.answers = ans1 :: ans2 :: rest → ans1.ok = true → ans2.ok = false →
          exec .read s = .next (raise .transferFailed
            (afterRead Frame.dummy ans2 rest (afterRead (Frame.readReq d.address) ans1 (ans2 :: rest) s)))) ∧
        (∀ ans1 ans2 rest, s.answers = ans1 :: ans2 :: rest → ans1.ok = true → ans2.ok = true →
          exec .read s = .next
            { afterRead Frame.dummy ans2 rest (afterRead (Frame.readReq d.address) ans1 (ans2 :: rest) s) with
              res := ans2.rx.b1 ++ ans2.rx.b2 ++ ans2.rx.b3 ++ ans2.rx.b4, resHeld := true, err := 0 }))

/-- R141: `READ_FIELD`: `read` of the owning register, then `extract`; a failed read is passed on unchanged. A bracket for each
transaction, and no second one after a failed first, is R134 by the spec's decision D13. -/
def Obligations.ReadFieldCommand : Prop :=
  decode [0x0B] = .ok .readField ∧
  ∀ s : State, s.seq = .idle →
    (findField s.cfg.toConfigData s.a = none → exec .readField s = .next (raise .invalidParameter s)) ∧
    ∀ F d, findField s.cfg.toConfigData s.a = some F → s.cfg.register? F.reg = some d →
      (d.hwRead = false →
        exec .readField s = .next { s with res := fieldExtract F (cacheAt s F.reg), resHeld := true, err := 0 }) ∧
      (d.hwRead = true →
        (∀ ans1 rest, s.answers = ans1 :: rest → ans1.ok = false →
          exec .readField s = .next (raise .transferFailed (afterRead (Frame.readReq F.reg) ans1 rest s))) ∧
        (∀ ans1 ans2 rest, s.answers = ans1 :: ans2 :: rest → ans1.ok = true → ans2.ok = false →
          exec .readField s = .next (raise .transferFailed
            (afterRead Frame.dummy ans2 rest (afterRead (Frame.readReq F.reg) ans1 (ans2 :: rest) s)))) ∧
        (∀ ans1 ans2 rest, s.answers = ans1 :: ans2 :: rest → ans1.ok = true → ans2.ok = true →
          exec .readField s = .next
            { afterRead Frame.dummy ans2 rest (afterRead (Frame.readReq F.reg) ans1 (ans2 :: rest) s) with
              res := fieldExtract F ans2.rx.word, resHeld := true, err := 0 }))

/-- R143: `GET_SHADOW`: the cache entry of any address 0 to 127, else RegisterAccessFailed; no bus event. That the registry is
not consulted is the spec's decision D33. -/
def Obligations.GetShadowCommand : Prop :=
  decode [0x0C] = .ok .getShadow ∧
  ∀ s : State, s.seq = .idle →
    (s.a.toNat ≤ 127 →
      exec .getShadow s = .next { s with res := cacheAt s (s.a.setWidth 7), resHeld := true, err := 0 }) ∧
    (127 < s.a.toNat → exec .getShadow s = .next (raise .registerAccessFailed s))

/-- R62: `write(R, V)` to a writable register that is not volatile, then `read(R)`, returns `V` with no bus access. That it
holds whatever the write's transfer did is the spec's own inference (R62, "derived from rule R61"). -/
def Obligations.ReadAfterWrite : Prop :=
  ∀ (s t : State) (d : RegisterDescriptor), s.seq = .idle → findRegister s.cfg.toConfigData s.a = some d →
    d.writable = true → d.volatile = false → exec .write s = .next t →
    exec .read t = .next { t with res := s.v, resHeld := true, err := 0 }

/-- R138 (the spec's own inference from R137 and R114): fields `F` and `G` of one register with disjoint masks: writing `F`
then `G`, then reading `F`, gives the value written to `F`, cut to its width, whatever the transfers did. -/
def Obligations.FieldWritesIndependent : Prop :=
  ∀ (s t u : State) (F G : FieldDescriptor) (d : RegisterDescriptor) (f g x y : Word),
    s.seq = .idle → findField s.cfg.toConfigData f = some F → findField s.cfg.toConfigData g = some G →
    F.reg = G.reg → fieldMask F &&& fieldMask G = 0 → s.cfg.register? F.reg = some d → d.writable = true →
    d.hwRead = false →
    exec .writeField { s with a := f, v := x } = .next t →
    exec .writeField { t with a := g, v := y } = .next u →
    ∃ w : Word, exec .readField { u with a := f } = .next { u with a := f, res := w, resHeld := true, err := 0 } ∧
      w.toNat = x.toNat % 2 ^ F.width

/-- R270: after a `WRITE` that ends with TransferFailed the cache is ahead of the chip: `GET_SHADOW` of the address returns the
value, and so does `READ` where it is served from the cache. -/
def Obligations.FailedWriteStaysInCache : Prop :=
  ∀ (s t : State), s.seq = .idle → exec .write s = .next t → t.err = 1 →
    exec .getShadow t = .next { t with res := s.v, resHeld := true, err := 0 } ∧
    ∀ d, findRegister s.cfg.toConfigData s.a = some d → d.volatile = false → d.access ≠ .readOnly →
      exec .read t = .next { t with res := s.v, resHeld := true, err := 0 }

/-! ## Quantity converter (spec/42_converter.md) -/

/-- R162: `RPM_TO_VMAX` where the register value fits: the port form `trunc(X * FULL_STEPS / (60 * CLOCK_HZ))` of the exact
formula, in `RES`. -/
def Obligations.RpmToVmaxCommand : Prop :=
  decode [0x10] = .ok .rpmToVmax ∧
  ∀ (s : State) (n : Int), s.seq = .idle →
    n = trunc ((s.q0.toInt : Rat) * s.cfg.fullSteps / (60 * s.cfg.clockHz)) → 0 ≤ n → n < 2 ^ 32 →
    ∃ x : Word, (x.toNat : Int) = n ∧ exec .rpmToVmax s = .next { s with res := x, resHeld := true, err := 0 }

/-- R164: `VMAX_TO_RPM`: `QRES = floor(V * CLOCK_HZ * 60 / FULL_STEPS)` where that is below 2^63 (the rounding is the spec's
decision D7), else some 64 bits (its decision D34). -/
def Obligations.VmaxToRpmCommand : Prop :=
  decode [0x11] = .ok .vmaxToRpm ∧
  ∀ (s : State) (m : Int), s.seq = .idle →
    m = ((s.v.toNat : Rat) * s.cfg.clockHz * 60 / s.cfg.fullSteps).floor →
    (m < 2 ^ 63 → ∃ x : Quad, (x.toNat : Int) = m ∧
      exec .vmaxToRpm s = .next { s with qres := x, qresHeld := true, err := 0 }) ∧
    (2 ^ 63 ≤ m → ∃ x : Quad,
      exec .vmaxToRpm s = .next { s with qres := x, qresHeld := true, err := 0, draws := s.draws + 1 })

/-- R165 and the monotonicity of R162 (the spec's own inferences): the round trip of a speed lies within one register unit
below it, the other direction is exact, and the conversion never decreases. -/
def Obligations.SpeedRoundTrip : Prop :=
  ∀ c : Config,
    (∀ r : Rat, 0 ≤ r →
      r - 60 * c.clockHz / (c.fullSteps * 2 ^ 32) < rpmOf c.toConfigData (vmaxOf c.toConfigData r).toNat ∧
      rpmOf c.toConfigData (vmaxOf c.toConfigData r).toNat ≤ r) ∧
    (∀ n : Nat, vmaxOf c.toConfigData (rpmOf c.toConfigData n) = n) ∧
    (∀ r r' : Rat, r ≤ r' → vmaxOf c.toConfigData r ≤ vmaxOf c.toConfigData r')

/-- R166, R167: the current scale is the source's formula over the reals, square root of two and all:
`clamp(floor(amps / FS_RMS * 32 - 1), 0, 31)` with `FS_RMS = (0.325 / R_SENSE) / sqrt(2)`; `CURRENT_TO_CS` puts it in `RES`. -/
def Obligations.CurrentScaleIsRealFormula : Prop :=
  decode [0x12] = .ok .currentToCs ∧
  (∀ (c : Config) (amps : Rat),
    csOf c.toConfigData amps =
      max 0 (min 31 ⌊(amps : ℝ) / ((13 / 40 : ℝ) / (c.rSense : ℝ) / Real.sqrt 2) * 32 - 1⌋)) ∧
  ∀ s : State, s.seq = .idle →
    ∃ x : Word, (x.toNat : Int) = csOf s.cfg.toConfigData (quantity s.q0) ∧
      exec .currentToCs s = .next { s with res := x, resHeld := true, err := 0 }

/-- R168 (the spec's own inference from R167): within 0 to 31, never decreasing, 0 at zero and below, 31 at and above full
scale. -/
def Obligations.CurrentScaleProperties : Prop :=
  ∀ c : Config,
    (∀ x : Rat, 0 ≤ csOf c.toConfigData x ∧ csOf c.toConfigData x ≤ 31) ∧
    (∀ x y : Rat, x ≤ y → csOf c.toConfigData x ≤ csOf c.toConfigData y) ∧
    (∀ x : Rat, x ≤ 0 → csOf c.toConfigData x = 0) ∧
    (∀ x : Rat, (13 / 40 : ℝ) / (c.rSense : ℝ) / Real.sqrt 2 ≤ (x : ℝ) → csOf c.toConfigData x = 31)

/-- R169: `ACCEL_TO_REGISTER`: the port form `clamp(trunc(X * 2^9 / CLOCK_HZ^2), 1, 65535)`; zero and every negative value
give 1. -/
def Obligations.AccelToRegisterCommand : Prop :=
  decode [0x13] = .ok .accelToRegister ∧
  ∀ (s : State) (n : Int), s.seq = .idle →
    n = max 1 (min 65535 (trunc ((s.q0.toInt : Rat) * 2 ^ 9 / s.cfg.clockHz ^ 2))) →
    (∃ x : Word, (x.toNat : Int) = n ∧
      exec .accelToRegister s = .next { s with res := x, resHeld := true, err := 0 }) ∧
    (s.q0.toInt ≤ 0 → n = 1)

/-- R171: `DURATION_TO_TZEROWAIT`: the port form `clamp(trunc(X * CLOCK_HZ / 2^41), 0, 65535)`; zero and every negative
duration give 0. -/
def Obligations.DurationToTzerowaitCommand : Prop :=
  decode [0x14] = .ok .durationToTzerowait ∧
  ∀ (s : State) (n : Int), s.seq = .idle →
    n = max 0 (min 65535 (trunc ((s.q0.toInt : Rat) * s.cfg.clockHz / 2 ^ 41))) →
    (∃ x : Word, (x.toNat : Int) = n ∧
      exec .durationToTzerowait s = .next { s with res := x, resHeld := true, err := 0 }) ∧
    (s.q0.toInt ≤ 0 → n = 0)

/-- R170, R172 (the spec's own inferences from R169 and R171): both clamped conversions stay in their range, never decrease,
take zero to their least value, and are 65535 exactly from the operand on at which the formula reaches it. -/
def Obligations.ClampedConverterProperties : Prop :=
  ∀ c : Config,
    (∀ x : Rat, 1 ≤ aregOf c.toConfigData x ∧ aregOf c.toConfigData x ≤ 65535) ∧
    (∀ x y : Rat, x ≤ y → aregOf c.toConfigData x ≤ aregOf c.toConfigData y) ∧
    aregOf c.toConfigData 0 = 1 ∧
    (∀ x : Rat, aregOf c.toConfigData x = 65535 ↔ 65535 * c.clockHz ^ 2 / 2 ^ 41 ≤ x) ∧
    (∀ x : Rat, 0 ≤ tzwOf c.toConfigData x ∧ tzwOf c.toConfigData x ≤ 65535) ∧
    (∀ x y : Rat, x ≤ y → tzwOf c.toConfigData x ≤ tzwOf c.toConfigData y) ∧
    tzwOf c.toConfigData 0 = 0 ∧
    (∀ x : Rat, tzwOf c.toConfigData x = 65535 ↔ 65535 * 2 ^ 9 / c.clockHz ≤ x)

/-! ## Motion sequencer (spec/43_motion_sequencer.md) -/

/-- R192: `STOP`: 0 to the max-velocity register and nothing else; InvalidParameter where that register is ReadOnly. -/
def Obligations.StopCommand : Prop :=
  decode [0x20] = .ok .stop ∧
  ∀ s : State, s.seq = .idle →
    (writableAt s.cfg.toConfigData s.cfg.regs.vmax = false → exec .stop s = .next (raise .invalidParameter s)) ∧
    ∀ ans rest, s.answers = ans :: rest → writableAt s.cfg.toConfigData s.cfg.regs.vmax = true →
      (ans.ok = true → exec .stop s = .next { afterWrite s.cfg.regs.vmax 0 ans rest s with err := 0 }) ∧
      (ans.ok = false → exec .stop s = .next (raise .transferFailed (afterWrite s.cfg.regs.vmax 0 ans rest s)))

/-- R193: `ROTATE` with a speed in range: the mode (1 for rpm >= 0, 2 below), then the magnitude's register value. Writing the
mode as a whole register is the spec's decision D19. -/
def Obligations.RotateCommand : Prop :=
  decode [0x21] = .ok .rotate ∧
  ∀ (s : State) (ans1 ans2 : Answer) (rest : List Answer) (x : Word), s.seq = .idle →
    s.answers = ans1 :: ans2 :: rest → ans1.ok = true → ans2.ok = true →
    writableAt s.cfg.toConfigData s.cfg.regs.rampmode = true → writableAt s.cfg.toConfigData s.cfg.regs.vmax = true →
    (x.toNat : Int) = vmaxOf s.cfg.toConfigData |quantity s.q0| →
    exec .rotate s = .next
      { afterWrite s.cfg.regs.vmax x ans2 rest
          (afterWrite s.cfg.regs.rampmode (if s.q0.toInt ≥ 0 then 1 else 2) ans1 (ans2 :: rest) s) with err := 0 }

/-- R163 in R162, R193 and R195 (the spec's decision D8): with a speed out of range `RPM_TO_VMAX`, `ROTATE` and `MOVE_TO` still
complete; the word in `RES` or in the velocity register is some word, of which nothing is said. -/
def Obligations.OutOfRangeSpeedStillCompletes : Prop :=
  ∀ s : State, s.seq = .idle →
    ((vmaxOf s.cfg.toConfigData (quantity s.q0) < 0 ∨ 2 ^ 32 ≤ vmaxOf s.cfg.toConfigData (quantity s.q0)) →
      ∃ x : Word, exec .rpmToVmax s = .next { s with res := x, resHeld := true, err := 0, draws := s.draws + 1 }) ∧
    ∀ (ans1 ans2 ans3 : Answer) (rest : List Answer),
    s.answers = ans1 :: ans2 :: ans3 :: rest → ans1.ok = true → ans2.ok = true → ans3.ok = true →
    (2 ^ 32 ≤ vmaxOf s.cfg.toConfigData |quantity s.q0| →
      writableAt s.cfg.toConfigData s.cfg.regs.rampmode = true →
      writableAt s.cfg.toConfigData s.cfg.regs.vmax = true →
      ∃ x : Word, exec .rotate s = .next
        { afterWrite s.cfg.regs.vmax x ans2 (ans3 :: rest)
            (afterWrite s.cfg.regs.rampmode (if s.q0.toInt ≥ 0 then 1 else 2) ans1 (ans2 :: ans3 :: rest) s) with
          err := 0, draws := s.draws + 1 }) ∧
    ((vmaxOf s.cfg.toConfigData (quantity s.q0) < 0 ∨ 2 ^ 32 ≤ vmaxOf s.cfg.toConfigData (quantity s.q0)) →
      writableAt s.cfg.toConfigData s.cfg.regs.rampmode = true →
      writableAt s.cfg.toConfigData s.cfg.regs.startSpeed = true →
      writableAt s.cfg.toConfigData s.cfg.regs.xtarget = true →
      ∃ x : Word, exec .moveTo s = .next
        { afterWrite s.cfg.regs.xtarget s.v ans3 rest
            (afterWrite s.cfg.regs.startSpeed x ans2 (ans3 :: rest)
              (afterWrite s.cfg.regs.rampmode 0 ans1 (ans2 :: ans3 :: rest) s)) with
          err := 0, draws := s.draws + 1 })

/-- R194 (the spec's own inference from R193): `ROTATE` with `r` and with `-r` write the same value to the max-velocity
register, in range, and differ only in the mode: 1 and 2. (-2^63 has no opposite in 64 bits and is left out.) -/
def Obligations.RotateSignByModeOnly : Prop :=
  ∀ (s : State) (ans1 ans2 : Answer) (rest : List Answer), s.seq = .idle →
    s.answers = ans1 :: ans2 :: rest → ans1.ok = true → ans2.ok = true →
    writableAt s.cfg.toConfigData s.cfg.regs.rampmode = true → writableAt s.cfg.toConfigData s.cfg.regs.vmax = true →
    0 < s.q0.toInt → vmaxOf s.cfg.toConfigData |quantity s.q0| < 2 ^ 32 →
    ∃ x : Word,
      exec .rotate s = .next
        { afterWrite s.cfg.regs.vmax x ans2 rest (afterWrite s.cfg.regs.rampmode 1 ans1 (ans2 :: rest) s) with
          err := 0 } ∧
      exec .rotate { s with q0 := -s.q0 } = .next
        { afterWrite s.cfg.regs.vmax x ans2 rest
            (afterWrite s.cfg.regs.rampmode 2 ans1 (ans2 :: rest) { s with q0 := -s.q0 }) with err := 0 }

/-- R195, R196, R275: `MOVE_TO` with a speed in range: mode 0, then the start speed, then the raw step count, in this order.
The start-speed value is the spec's decision D20. -/
def Obligations.MoveToCommand : Prop :=
  decode [0x22] = .ok .moveTo ∧
  ∀ (s : State) (ans1 ans2 ans3 : Answer) (rest : List Answer) (x : Word), s.seq = .idle →
    s.answers = ans1 :: ans2 :: ans3 :: rest → ans1.ok = true → ans2.ok = true → ans3.ok = true →
    writableAt s.cfg.toConfigData s.cfg.regs.rampmode = true →
    writableAt s.cfg.toConfigData s.cfg.regs.startSpeed = true →
    writableAt s.cfg.toConfigData s.cfg.regs.xtarget = true →
    (x.toNat : Int) = vmaxOf s.cfg.toConfigData (quantity s.q0) →
    exec .moveTo s = .next
      { afterWrite s.cfg.regs.xtarget s.v ans3 rest
          (afterWrite s.cfg.regs.startSpeed x ans2 (ans3 :: rest)
            (afterWrite s.cfg.regs.rampmode 0 ans1 (ans2 :: ans3 :: rest) s)) with err := 0 }

/-- R197: `SET_GLOBAL_SCALING`: the value written is 0 to 256, within one half of `clamp(factor, 0, 1) * 256`, a tie going up
(the spec's decision D21); the register is written whole (its decision D19). -/
def Obligations.SetGlobalScalingCommand : Prop :=
  decode [0x23] = .ok .setGlobalScaling ∧
  ∀ s : State, s.seq = .idle →
    (writableAt s.cfg.toConfigData s.cfg.regs.globalScaler = false →
      exec .setGlobalScaling s = .next (raise .invalidParameter s)) ∧
    ∀ (ans : Answer) (rest : List Answer), s.answers = ans :: rest →
      writableAt s.cfg.toConfigData s.cfg.regs.globalScaler = true →
      ∃ x : Word,
        x.toNat ≤ 256 ∧
        max 0 (min 1 (quantity s.q0)) * 256 - 1 / 2 < (x.toNat : Rat) ∧
        (x.toNat : Rat) ≤ max 0 (min 1 (quantity s.q0)) * 256 + 1 / 2 ∧
        (ans.ok = true → exec .setGlobalScaling s =
          .next { afterWrite s.cfg.regs.globalScaler x ans rest s with err := 0 }) ∧
        (ans.ok = false → exec .setGlobalScaling s =
          .next (raise .transferFailed (afterWrite s.cfg.regs.globalScaler x ans rest s)))

/-- R198: factor 0 writes 0, one half writes 128, 1 writes 256, and a factor outside 0 to 1 writes the nearest bound's
value. -/
def Obligations.GlobalScalingProperties : Prop :=
  ∀ (s : State) (ans : Answer) (rest : List Answer), s.seq = .idle → s.answers = ans :: rest → ans.ok = true →
    writableAt s.cfg.toConfigData s.cfg.regs.globalScaler = true →
    (quantity s.q0 ≤ 0 → exec .setGlobalScaling s =
      .next { afterWrite s.cfg.regs.globalScaler 0 ans rest s with err := 0 }) ∧
    (quantity s.q0 = 1 / 2 → exec .setGlobalScaling s =
      .next { afterWrite s.cfg.regs.globalScaler 128 ans rest s with err := 0 }) ∧
    (1 ≤ quantity s.q0 → exec .setGlobalScaling s =
      .next { afterWrite s.cfg.regs.globalScaler 256 ans rest s with err := 0 })

/-- R199: `SET_LINEAR_ACCELERATION`: one register value to A1, AMAX, DMAX, D1 in this order. One acceleration for all four is
the spec's decision D22. -/
def Obligations.SetLinearAccelerationCommand : Prop :=
  decode [0x24] = .ok .setLinearAcceleration ∧
  ∀ (s : State) (ans1 ans2 ans3 ans4 : Answer) (rest : List Answer) (x : Word), s.seq = .idle →
    s.answers = ans1 :: ans2 :: ans3 :: ans4 :: rest →
    ans1.ok = true → ans2.ok = true → ans3.ok = true → ans4.ok = true →
    writableAt s.cfg.toConfigData s.cfg.regs.a1 = true → writableAt s.cfg.toConfigData s.cfg.regs.amax = true →
    writableAt s.cfg.toConfigData s.cfg.regs.dmax = true → writableAt s.cfg.toConfigData s.cfg.regs.d1 = true →
    (x.toNat : Int) = aregOf s.cfg.toConfigData (quantity s.q0) →
    exec .setLinearAcceleration s = .next
      { afterWrite s.cfg.regs.d1 x ans4 rest
          (afterWrite s.cfg.regs.dmax x ans3 (ans4 :: rest)
            (afterWrite s.cfg.regs.amax x ans2 (ans3 :: ans4 :: rest)
              (afterWrite s.cfg.regs.a1 x ans1 (ans2 :: ans3 :: ans4 :: rest) s))) with err := 0 }

/-- R200: `SET_ADVANCED_ACCELERATION`: one acceleration for each phase, written in the order A1, AMAX, DMAX, D1. The operands
are the spec's decision D22. -/
def Obligations.SetAdvancedAccelerationCommand : Prop :=
  decode [0x25] = .ok .setAdvancedAcceleration ∧
  ∀ (s : State) (ans1 ans2 ans3 ans4 : Answer) (rest : List Answer) (x1 x2 x3 x4 : Word), s.seq = .idle →
    s.answers = ans1 :: ans2 :: ans3 :: ans4 :: rest →
    ans1.ok = true → ans2.ok = true → ans3.ok = true → ans4.ok = true →
    writableAt s.cfg.toConfigData s.cfg.regs.a1 = true → writableAt s.cfg.toConfigData s.cfg.regs.amax = true →
    writableAt s.cfg.toConfigData s.cfg.regs.dmax = true → writableAt s.cfg.toConfigData s.cfg.regs.d1 = true →
    (x1.toNat : Int) = aregOf s.cfg.toConfigData (quantity s.q0) →
    (x2.toNat : Int) = aregOf s.cfg.toConfigData (quantity s.q1) →
    (x3.toNat : Int) = aregOf s.cfg.toConfigData (quantity s.q2) →
    (x4.toNat : Int) = aregOf s.cfg.toConfigData (quantity s.q3) →
    exec .setAdvancedAcceleration s = .next
      { afterWrite s.cfg.regs.d1 x4 ans4 rest
          (afterWrite s.cfg.regs.dmax x3 ans3 (ans4 :: rest)
            (afterWrite s.cfg.regs.amax x2 ans2 (ans3 :: ans4 :: rest)
              (afterWrite s.cfg.regs.a1 x1 ans1 (ans2 :: ans3 :: ans4 :: rest) s))) with err := 0 }

/-- R203: `SET_IRUN`: the current scale of `Q0` amperes as a field write into the current-control register. That the operand is
a current in amperes is the spec's decision D23. -/
def Obligations.SetIrunCommand : Prop :=
  decode [0x26] = .ok .setIrun ∧
  ∀ (s : State) (F : FieldDescriptor), s.seq = .idle →
    findField s.cfg.toConfigData s.cfg.roleFields.irun = some F →
    F.reg = s.cfg.regs.current ∧
    (writableAt s.cfg.toConfigData F.reg = false → exec .setIrun s = .next (raise .invalidParameter s)) ∧
    ∀ (ans : Answer) (rest : List Answer) (x : Word), s.answers = ans :: rest →
      writableAt s.cfg.toConfigData F.reg = true → (x.toNat : Int) = csOf s.cfg.toConfigData (quantity s.q0) →
      (ans.ok = true → exec .setIrun s =
        .next { afterWrite F.reg (fieldCompose F (cacheAt s F.reg) x) ans rest s with err := 0 }) ∧
      (ans.ok = false → exec .setIrun s =
        .next (raise .transferFailed (afterWrite F.reg (fieldCompose F (cacheAt s F.reg) x) ans rest s)))

/-- R204: `SET_IHOLD`: the hold current's scale, then the default hold delay, both field writes into the current-control
register; the second is composed on the first's result. The operand and the order are the spec's decision D23. -/
def Obligations.SetIholdCommand : Prop :=
  decode [0x27] = .ok .setIhold ∧
  ∀ (s : State) (ans1 ans2 : Answer) (rest : List Answer) (F G : FieldDescriptor) (x y : Word), s.seq = .idle →
    s.answers = ans1 :: ans2 :: rest → ans1.ok = true → ans2.ok = true →
    findField s.cfg.toConfigData s.cfg.roleFields.ihold = some F →
    findField s.cfg.toConfigData s.cfg.roleFields.iholddelay = some G →
    writableAt s.cfg.toConfigData s.cfg.regs.current = true →
    (x.toNat : Int) = csOf s.cfg.toConfigData (quantity s.q0) →
    y = fieldCompose F (cacheAt s s.cfg.regs.current) x →
    exec .setIhold s = .next
      { afterWrite s.cfg.regs.current (fieldCompose G y s.cfg.iholddelayDefault) ans2 rest
          (afterWrite s.cfg.regs.current y ans1 (ans2 :: rest) s) with err := 0 }

/-- R207: `SET_STEALTH_CHOP`: `V[0]` as a one-bit field write; the other bits of `V` are ignored. -/
def Obligations.SetStealthChopCommand : Prop :=
  decode [0x2A] = .ok .setStealthChop ∧
  ∀ (s : State) (F : FieldDescriptor), s.seq = .idle →
    findField s.cfg.toConfigData s.cfg.roleFields.stealth = some F →
    F.width = 1 ∧
    (writableAt s.cfg.toConfigData F.reg = false → exec .setStealthChop s = .next (raise .invalidParameter s)) ∧
    ∀ (ans : Answer) (rest : List Answer), s.answers = ans :: rest → writableAt s.cfg.toConfigData F.reg = true →
      (ans.ok = true → exec .setStealthChop s =
        .next { afterWrite F.reg (fieldCompose F (cacheAt s F.reg) (if s.v.getLsbD 0 then 1 else 0)) ans rest s with
          err := 0 }) ∧
      (ans.ok = false → exec .setStealthChop s =
        .next (raise .transferFailed
          (afterWrite F.reg (fieldCompose F (cacheAt s F.reg) (if s.v.getLsbD 0 then 1 else 0)) ans rest s)))

/-- R209: `GET_ACTUAL_MOTOR_POSITION`: always the two-transaction hardware read, the word unchanged in `RES`; the only error is
TransferFailed. That the second transaction is not attempted after a failed first is R134 by the spec's decision D13. -/
def Obligations.GetActualMotorPositionCommand : Prop :=
  decode [0x28] = .ok .getActualMotorPosition ∧
  ∀ s : State, s.seq = .idle →
    (∀ ans1 rest, s.answers = ans1 :: rest → ans1.ok = false →
      exec .getActualMotorPosition s =
        .next (raise .transferFailed (afterRead (Frame.readReq s.cfg.regs.xactual) ans1 rest s))) ∧
    (∀ ans1 ans2 rest, s.answers = ans1 :: ans2 :: rest → ans1.ok = true → ans2.ok = false →
      exec .getActualMotorPosition s = .next (raise .transferFailed
        (afterRead Frame.dummy ans2 rest (afterRead (Frame.readReq s.cfg.regs.xactual) ans1 (ans2 :: rest) s)))) ∧
    (∀ ans1 ans2 rest, s.answers = ans1 :: ans2 :: rest → ans1.ok = true → ans2.ok = true →
      exec .getActualMotorPosition s = .next
        { afterRead Frame.dummy ans2 rest (afterRead (Frame.readReq s.cfg.regs.xactual) ans1 (ans2 :: rest) s) with
          res := ans2.rx.word, resHeld := true, err := 0 })

/-- R210: `GET_ACTUAL_VELOCITY`: the word's magnitude after the sign extension from bit 23, as rpm in `QRES`; the only error is
TransferFailed. That the result is a magnitude, and the literal sign extension, are the spec's decision D24; the rounding of
`QRES` its decision D7, the out-of-range bits its decision D34; that the second transaction is not attempted after a failed
first is R134 by its decision D13. -/
def Obligations.GetActualVelocityCommand : Prop :=
  decode [0x29] = .ok .getActualVelocity ∧
  ∀ s : State, s.seq = .idle →
    (∀ ans1 rest, s.answers = ans1 :: rest → ans1.ok = false →
      exec .getActualVelocity s =
        .next (raise .transferFailed (afterRead (Frame.readReq s.cfg.regs.vactual) ans1 rest s))) ∧
    (∀ ans1 ans2 rest, s.answers = ans1 :: ans2 :: rest → ans1.ok = true → ans2.ok = false →
      exec .getActualVelocity s = .next (raise .transferFailed
        (afterRead Frame.dummy ans2 rest (afterRead (Frame.readReq s.cfg.regs.vactual) ans1 (ans2 :: rest) s)))) ∧
    ∀ (ans1 ans2 : Answer) (rest : List Answer) (n : Nat) (m : Int),
      s.answers = ans1 :: ans2 :: rest → ans1.ok = true → ans2.ok = true →
      n = (if ans2.rx.word.getLsbD 23 then ans2.rx.word ||| 0xFF000000 else ans2.rx.word).toInt.natAbs →
      m = ((n : Rat) * s.cfg.clockHz * 60 / s.cfg.fullSteps).floor →
      n ≤ 2 ^ 31 ∧
      (m < 2 ^ 63 → ∃ x : Quad, (x.toNat : Int) = m ∧
        exec .getActualVelocity s = .next
          { afterRead Frame.dummy ans2 rest (afterRead (Frame.readReq s.cfg.regs.vactual) ans1 (ans2 :: rest) s) with
            qres := x, qresHeld := true, err := 0 }) ∧
      (2 ^ 63 ≤ m → ∃ x : Quad,
        exec .getActualVelocity s = .next
          { afterRead Frame.dummy ans2 rest (afterRead (Frame.readReq s.cfg.regs.vactual) ans1 (ans2 :: rest) s) with
            qres := x, qresHeld := true, err := 0, draws := s.draws + 1 })

/-- R191, R233 (c), R236 for the composite commands of more than one write, in every idle state: each is the sequence of its
writes, ended by the first that fails with everything before it standing: a ReadOnly register with InvalidParameter and none of
its write done, a failed transfer with TransferFailed and its cache entry standing. A speed out of range is some word, of which
nothing is said (R163, the spec's decision D8). -/
def Obligations.CompositeCommandsFailFast : Prop :=
  ∀ s : State, s.seq = .idle →
    (∀ x : Word, (x.toNat : Int) = vmaxOf s.cfg.toConfigData |quantity s.q0| →
      exec .rotate s = .next (writeSequence
        [⟨s.cfg.regs.rampmode, if s.q0.toInt ≥ 0 then 1 else 2, 0⟩, ⟨s.cfg.regs.vmax, x, 0⟩] s)) ∧
    (2 ^ 32 ≤ vmaxOf s.cfg.toConfigData |quantity s.q0| →
      ∃ x : Word, exec .rotate s = .next (writeSequence
        [⟨s.cfg.regs.rampmode, if s.q0.toInt ≥ 0 then 1 else 2, 0⟩, ⟨s.cfg.regs.vmax, x, 1⟩] s)) ∧
    (∀ x : Word, (x.toNat : Int) = vmaxOf s.cfg.toConfigData (quantity s.q0) →
      exec .moveTo s = .next (writeSequence
        [⟨s.cfg.regs.rampmode, 0, 0⟩, ⟨s.cfg.regs.startSpeed, x, 0⟩, ⟨s.cfg.regs.xtarget, s.v, 0⟩] s)) ∧
    ((vmaxOf s.cfg.toConfigData (quantity s.q0) < 0 ∨ 2 ^ 32 ≤ vmaxOf s.cfg.toConfigData (quantity s.q0)) →
      ∃ x : Word, exec .moveTo s = .next (writeSequence
        [⟨s.cfg.regs.rampmode, 0, 0⟩, ⟨s.cfg.regs.startSpeed, x, 1⟩, ⟨s.cfg.regs.xtarget, s.v, 0⟩] s)) ∧
    (∀ x1 x2 x3 x4 : Word,
      (x1.toNat : Int) = aregOf s.cfg.toConfigData (quantity s.q0) →
      (x2.toNat : Int) = aregOf s.cfg.toConfigData (quantity s.q1) →
      (x3.toNat : Int) = aregOf s.cfg.toConfigData (quantity s.q2) →
      (x4.toNat : Int) = aregOf s.cfg.toConfigData (quantity s.q3) →
      exec .setLinearAcceleration s = .next (writeSequence
        [⟨s.cfg.regs.a1, x1, 0⟩, ⟨s.cfg.regs.amax, x1, 0⟩, ⟨s.cfg.regs.dmax, x1, 0⟩, ⟨s.cfg.regs.d1, x1, 0⟩] s) ∧
      exec .setAdvancedAcceleration s = .next (writeSequence
        [⟨s.cfg.regs.a1, x1, 0⟩, ⟨s.cfg.regs.amax, x2, 0⟩, ⟨s.cfg.regs.dmax, x3, 0⟩, ⟨s.cfg.regs.d1, x4, 0⟩] s)) ∧
    (∀ (F G : FieldDescriptor) (x y : Word),
      findField s.cfg.toConfigData s.cfg.roleFields.ihold = some F →
      findField s.cfg.toConfigData s.cfg.roleFields.iholddelay = some G →
      (x.toNat : Int) = csOf s.cfg.toConfigData (quantity s.q0) →
      y = fieldCompose F (cacheAt s s.cfg.regs.current) x →
      exec .setIhold s = .next (writeSequence
        [⟨s.cfg.regs.current, y, 0⟩, ⟨s.cfg.regs.current, fieldCompose G y s.cfg.iholddelayDefault, 0⟩] s))

/-! ## Errors and whole-machine rules (spec/60_exceptions.md, spec/10_state.md) -/

/-- R238: `raise`: an owed `Deselect` first, the kind's code in `ERR`, `SEQ` idle, `RES` and `QRES` without a value; every cache
entry, the operand registers and everything else kept. -/
def Obligations.RaiseEndsCommand : Prop :=
  ∀ (kind : ErrKind) (s : State),
    (raise kind s).err = kind.code ∧ (raise kind s).seq = .idle ∧
    (raise kind s).resHeld = false ∧ (raise kind s).qresHeld = false ∧
    (raise kind s).cache = s.cache ∧ (raise kind s).cfg = s.cfg ∧ (raise kind s).op = s.op ∧
    (raise kind s).a = s.a ∧ (raise kind s).v = s.v ∧ (raise kind s).w = s.w ∧ (raise kind s).q0 = s.q0 ∧
    (raise kind s).q1 = s.q1 ∧ (raise kind s).q2 = s.q2 ∧ (raise kind s).q3 = s.q3 ∧
    (raise kind s).txn = s.txn ∧ (raise kind s).answers = s.answers ∧ (raise kind s).host = s.host ∧
    (∀ op k ph, s.seq = .run op k ph → (ph = .xfer1 ∨ ph = .dsel1 ∨ ph = .xfer2 ∨ ph = .dsel2) →
      (raise kind s).trace = s.trace ++ [.deselect]) ∧
    (∀ op k ph, s.seq = .run op k ph → (ph = .check ∨ ph = .sel1 ∨ ph = .sel2 ∨ ph = .done) →
      (raise kind s).trace = s.trace) ∧
    (s.seq = .idle → (raise kind s).trace = s.trace)

/-- R236 (the spec's own inference from R231 to R235): every command completes in `IDLE`, and ends with one of the codes the
table marks for it; the converter commands cannot fail. -/
def Obligations.ErrorKindsByCommand : Prop :=
  ∀ (i : Instr) (s : State), i.isCommand = true → s.seq = .idle →
    ∃ t, exec i s = .next t ∧ t.seq = .idle ∧ t.err ∈ errorsOf i

/-- R28, R260 (the spec's decisions D25, D26): while a command is in progress no command, port write or reset is accepted. That
a frame by itself is an instruction, refused then as a command is, is the model's choice (notes/assumptions/5.md), and so is
the action `start` (notes/assumptions/9.md). Nothing is said of port reads (notes/assumptions/17.md). -/
def Obligations.BusyBlockRefuses : Prop :=
  ∀ (s : State) (op : Byte) (k : Nat) (ph : Phase), s.seq = .run op k ph →
    (∀ i : Instr, exec i s = .refused .busy) ∧
    (∀ act : HostAction, (∀ f, act ≠ .frame f) → perform act s = .refused .busy)

/-- R21, R20: no command writes an operand register or the configuration, and none touches the host's coming actions.
The same of a wire frame by itself is the model's choice (notes/assumptions/5.md). -/
def Obligations.OperandRegistersNeverWritten : Prop :=
  ∀ (i : Instr) (s t : State), exec i s = .next t →
    t.cfg = s.cfg ∧ t.op = s.op ∧ t.a = s.a ∧ t.v = s.v ∧ t.w = s.w ∧ t.q0 = s.q0 ∧ t.q1 = s.q1 ∧ t.q2 = s.q2 ∧
    t.q3 = s.q3 ∧ t.host = s.host ∧ t.seq = s.seq

/-- R23 (the spec's decisions D2, D31): a command that succeeds writes only the result register R89 names for it, and that one
holds a value; a command that ends with an error leaves neither with a value. That a wire frame by itself touches none, `ERR` included, is the model's choice
(notes/assumptions/5.md). -/
def Obligations.ResultRegisterFrame : Prop :=
  ∀ (i : Instr) (s t : State), exec i s = .next t →
    (i.isCommand = true → t.err = 0 →
      (i.writesRes = true → t.resHeld = true) ∧ (i.writesQres = true → t.qresHeld = true) ∧
      (i.writesRes = false → t.res = s.res ∧ t.resHeld = s.resHeld) ∧
      (i.writesQres = false → t.qres = s.qres ∧ t.qresHeld = s.qresHeld)) ∧
    (i.isCommand = true → t.err ≠ 0 → t.resHeld = false ∧ t.qresHeld = false) ∧
    (i.isCommand = false → t.res = s.res ∧ t.resHeld = s.resHeld ∧ t.qres = s.qres ∧ t.qresHeld = s.qresHeld ∧
      t.err = s.err)

/-- R35: the cache changes only at the registers a command writes, whose addresses are those of its meaning; reads of any
kind, converter commands and field-unit commands change no entry. That a wire frame by itself changes none is the model's
choice (notes/assumptions/5.md). -/
def Obligations.CacheChangesOnlyAtTargets : Prop :=
  ∀ (i : Instr) (s t : State), exec i s = .next t →
    ∀ a : Addr, a ∉ writeTargets i s → cacheAt t a = cacheAt s a

/-- R90, R25 (the spec's decision D2): an operand register a command's format does not name is neither read nor changed:
whatever it holds, everything else comes out the same. That a wire frame by itself reads none is the model's choice
(notes/assumptions/5.md). -/
def Obligations.UnnamedOperandsDoNotMatter : Prop :=
  ∀ (i : Instr) (r : PortReg) (x : Quad) (s : State), r ∉ i.operands →
    exec i (setOperand r x s) = mapNext (setOperand r x) (exec i s)

/-- R132, R191, R212, R231: a command sends at most four brackets and takes one answer for each; every transfer but the last
succeeded, none is sent again; and the command ends with TransferFailed exactly where the last one failed. That a read is two
brackets, the second unsent after a failed first, is the spec's decision D13. -/
def Obligations.OneAnswerPerBracket : Prop :=
  ∀ (i : Instr) (s t : State), i.isCommand = true → s.seq = .idle → 4 ≤ s.answers.length → exec i s = .next t →
    ∃ sent : List Frame, sent.length ≤ 4 ∧
      t.trace = s.trace ++ sent.flatMap (bracketEvents s.cfg.toConfigData) ∧
      t.answers = s.answers.drop sent.length ∧
      (∀ j, j + 1 < sent.length → ∃ ans, s.answers[j]? = some ans ∧ ans.ok = true) ∧
      (t.err = 1 ↔ ∃ n ans, sent.length = n + 1 ∧ s.answers[n]? = some ans ∧ ans.ok = false)

/-- R208, R39: the ramp mode is the cache entry of its register. Where no other role has that register, every command but
`ROTATE`, `MOVE_TO` and a host's `WRITE` or `WRITE_FIELD` leaves it; `ROTATE` sets 1 or 2 and `MOVE_TO` 0, even where the
transfer fails. That `WRITE_FIELD`, or another role on that register, may change it is the model's choice
(notes/assumptions/18.md), and so is that a wire frame by itself does not (notes/assumptions/5.md). -/
def Obligations.RampModeTransitions : Prop :=
  ∀ (i : Instr) (s t : State), exec i s = .next t → s.seq = .idle →
    writableAt s.cfg.toConfigData s.cfg.regs.rampmode = true →
    s.cfg.regs.rampmode ∉ [s.cfg.regs.vmax, s.cfg.regs.startSpeed, s.cfg.regs.xtarget, s.cfg.regs.globalScaler,
      s.cfg.regs.a1, s.cfg.regs.amax, s.cfg.regs.dmax, s.cfg.regs.d1, s.cfg.regs.current] →
    (∀ F, findField s.cfg.toConfigData s.cfg.roleFields.stealth = some F → F.reg ≠ s.cfg.regs.rampmode) →
    (i = .rotate → cacheAt t s.cfg.regs.rampmode = if s.q0.toInt ≥ 0 then 1 else 2) ∧
    (i = .moveTo → cacheAt t s.cfg.regs.rampmode = 0) ∧
    (i ≠ .rotate → i ≠ .moveTo → i ≠ .write → i ≠ .writeField →
      cacheAt t s.cfg.regs.rampmode = cacheAt s s.cfg.regs.rampmode)

/-! ## The machine -/

/-- A step runs the decoded instruction: with the sequencer idle and an issue event at hand, `step` is `exec` of what `OP`
decodes to, the event taken from the host's list; the same for a wire frame. The host's list and the two actions are the
model's choice (notes/assumptions/8.md and 5.md). -/
def Obligations.StepRunsDecodedInstruction : Prop :=
  ∀ (s : State) (i : Instr) (rest : List HostAction), s.seq = .idle →
    (s.host = .issue :: rest → decode [s.op] = .ok i → step s = exec i { s with host := rest }) ∧
    (∀ f : Frame, s.host = .frame f :: rest → decode f.bytes = .ok i → step s = exec i { s with host := rest })

/-- R27, R88: accepting a command sets `RUN(op, 0, CHECK)` and nothing else, and from there the sequencer's phases, run one by
one, do exactly what the command does as a whole, for every opcode and every state, and reach `IDLE` within 20 phases. The two
granularities, and the host's action `start` beside `issue`, are the model's choice (notes/assumptions/9.md). -/
def Obligations.PhasesRunWholeCommand : Prop :=
  (∀ (s : State) (rest : List HostAction), s.seq = .idle → s.host = .start :: rest →
    step s = .next { s with seq := .run s.op 0 .check, host := rest }) ∧
  ∀ s : State, s.seq = .idle → runToIdle 20 { s with seq := .run s.op 0 .check } = issue s

/-- R27, R282 (the spec's own inference): in a sequencer state a command can be in, a step gives a next state, again one a
command can be in, with strictly fewer phases left; a command starts with at most 20. So no state of
the invariant is stuck, and all a step refuses there is a frame the block never sends, handed over by itself, which is the
model's own action (notes/assumptions/5.md). -/
def Obligations.PhasesProgress : Prop :=
  (∀ s : State, seqLegal s.seq = true → s.seq ≠ .idle →
    ∃ t, step s = .next t ∧ seqLegal t.seq = true ∧ phasesLeft t.seq < phasesLeft s.seq) ∧
  (∀ op : Byte, seqLegal (.run op 0 .check) = true ∧ phasesLeft (.run op 0 .check) ≤ 20) ∧
  (∀ s : State, Inv s → Safe s ∧ ∀ r, step s = .refused r → r = .foreignFrame)

/-- R131, R81, R136, R230: every step keeps the invariant: the events are whole brackets of the block's own frames (with the
open part of the one in progress), the sequencer stays where a command can put it, the cache holds 0 wherever no write is
accepted, `ERR` is a code the block raises. The steps include the model's own actions `start` and `frame`
(notes/assumptions/9.md and 5.md). -/
def Obligations.StepKeepsInvariant : Prop :=
  ∀ s t : State, Inv s → step s = .next t → Inv t

/-- The invariant holds right after reset, of every valid configuration. -/
def Obligations.ResetHasInvariant : Prop :=
  ∀ c : Config, Inv (State.resetOf c)

/-- R44, R260, R261: reset leaves every cache entry 0, `SEQ` idle, `ERR` 0, `RES` and `QRES` without a value, the configuration
untouched, and emits no bus event. -/
def Obligations.ResetLeaves : Prop :=
  ∀ s : State, s.seq = .idle →
    ∃ t, portReset s = .next t ∧ (∀ a : Addr, cacheAt t a = 0) ∧ t.seq = .idle ∧ t.err = 0 ∧ t.resHeld = false ∧
      t.qresHeld = false ∧ t.cfg = s.cfg ∧ t.trace = s.trace ∧ t.answers = s.answers ∧ t.host = s.host

/-- R21, R22, R23, R24: the host writes one operand register at a time and nothing else; it reads `RES` and `QRES` as the last
command wrote them where they hold a value, and the read changes nothing then; it reads `ERR` as it stands. All of it in
`IDLE`: what a read gets while a command runs is the model's choice (notes/assumptions/17.md) and not stated. -/
def Obligations.HostPortAccess : Prop :=
  ∀ s : State, s.seq = .idle →
    (∀ x, perform (.setOp x) s = .next { s with op := x }) ∧
    (∀ x, perform (.setA x) s = .next { s with a := x }) ∧
    (∀ x, perform (.setV x) s = .next { s with v := x }) ∧
    (∀ x, perform (.setW x) s = .next { s with w := x }) ∧
    (∀ x, perform (.setQ0 x) s = .next { s with q0 := x }) ∧
    (∀ x, perform (.setQ1 x) s = .next { s with q1 := x }) ∧
    (∀ x, perform (.setQ2 x) s = .next { s with q2 := x }) ∧
    (∀ x, perform (.setQ3 x) s = .next { s with q3 := x }) ∧
    portReadErr s = s.err ∧
    (s.resHeld = true → portReadRes s = (s.res, s)) ∧
    (s.qresHeld = true → portReadQres s = (s.qres, s)) ∧
    (s.resHeld = false → ∃ x, portReadRes s = (x, { s with draws := s.draws + 1 })) ∧
    (s.qresHeld = false → ∃ x, portReadQres s = (x, { s with draws := s.draws + 1 }))
end

