-- ==== Sys2Proof/Laws/Frames.lean ====
section
/-! SUPPORT. The wire frames: words survive the split into bytes, addresses survive the address byte, and the three frames
of the block are recognised (spec/30_encoding.md R80 to R85). -/

namespace Sys2Proof

open Sys2Proof.Safety

/-- The bits of a frame's word, byte by byte. -/
theorem getLsbD_word (f : Frame) (i : Nat) :
    f.word.getLsbD i =
      if i < 8 then f.b4.getLsbD i
      else if i < 16 then f.b3.getLsbD (i - 8)
      else if i < 24 then f.b2.getLsbD (i - 16)
      else f.b1.getLsbD (i - 24) := by
  have h : f.word.getLsbD i = (f.b1 ++ f.b2 ++ f.b3 ++ f.b4 : BitVec (8 + 8 + 8 + 8)).getLsbD i := rfl
  rw [h]
  simp only [BitVec.getLsbD_append]
  split
  · rfl
  · split
    · rw [if_pos (by omega)]
    · split
      · rw [if_neg (by omega), if_pos (by omega)]
        congr 1
      · rw [if_neg (by omega), if_neg (by omega)]
        congr 1

/-- R53: the word put into a frame is the word read out of it. -/
@[simp] theorem word_ofWord (b0 : Byte) (v : Word) : (Frame.ofWord b0 v).word = v := by
  apply BitVec.eq_of_getLsbD_eq
  intro i hi
  rw [getLsbD_word]
  simp only [Frame.ofWord, BitVec.getLsbD_extractLsb']
  split
  · simp [*]
  · split
    · simp [show i - 8 < 8 by omega, show 8 + (i - 8) = i by omega]
    · split
      · simp [show i - 16 < 8 by omega, show 16 + (i - 16) = i by omega]
      · simp [show i - 24 < 8 by omega, show 24 + (i - 24) = i by omega]

/-- R53: a frame is put together again from its address byte and its word. -/
theorem ofWord_word (f : Frame) : Frame.ofWord f.b0 f.word = f := by
  cases f with
  | mk b0 b1 b2 b3 b4 =>
    simp only [Frame.ofWord, Frame.mk.injEq, true_and]
    refine ⟨?_, ?_, ?_, ?_⟩ <;>
    · apply BitVec.eq_of_getLsbD_eq
      intro i hi
      rw [BitVec.getLsbD_extractLsb', getLsbD_word]
      simp only [hi, decide_true, Bool.true_and]
      first
        | rw [if_neg (by omega), if_neg (by omega), if_neg (by omega)]
        | rw [if_neg (by omega), if_neg (by omega), if_pos (by omega)]
        | rw [if_neg (by omega), if_pos (by omega)]
        | rw [if_pos (by omega)]
      congr 1
      omega

theorem addressByte_write : ∀ a : Addr, (addressByte true a).setWidth 7 = a ∧ (addressByte true a).msb = true := by
  decide +kernel

theorem addressByte_read : ∀ a : Addr, (addressByte false a).setWidth 7 = a ∧ (addressByte false a).msb = false := by
  decide +kernel

@[simp] theorem word_write (a : Addr) (v : Word) : (Frame.write a v).word = v := word_ofWord _ _

@[simp] theorem word_readReq (a : Addr) : (Frame.readReq a).word = 0 := word_ofWord _ _

@[simp] theorem word_dummy : Frame.dummy.word = 0 := by decide

/-- R84: the dummy is the read request for address 0, bit for bit. -/
theorem readReq_zero : Frame.readReq 0 = Frame.dummy := by decide

@[simp] theorem blockFrame_write (a : Addr) (v : Word) : blockFrame (Frame.write a v) = true := by
  have h : (Frame.write a v).b0.setWidth 7 = a := (addressByte_write a).1
  simp [blockFrame, h]

@[simp] theorem blockFrame_readReq (a : Addr) : blockFrame (Frame.readReq a) = true := by
  have h : (Frame.readReq a).b0.setWidth 7 = a := (addressByte_read a).1
  simp [blockFrame, h]

@[simp] theorem blockFrame_dummy : blockFrame Frame.dummy = true := by decide

end Sys2Proof
end

