-- ==== Sys2Proof/Laws/Lookup.lean ====
section
/-! SUPPORT. What the lookups find, and what a valid configuration guarantees about the roles (spec/00_scope.md R7,
spec/40_field_unit.md R110, R111). -/

namespace Sys2Proof.Machine

open Sys2Proof Sys2Proof.Safety

theorem register?_address {c : ConfigData} {r : Addr} {d : RegisterDescriptor} (h : c.register? r = some d) :
    d.address = r := by
  simpa using List.find?_some h

@[simp] theorem addrOf_fixedAddr (r : Addr) : addrOf (fixedAddr r) = some r := by
  have h := r.isLt
  simp only [addrOf, fixedAddr, BitVec.toNat_setWidth]
  rw [if_pos (by omega)]
  congr 1
  ext i hi
  simp

@[simp] theorem findRegister_fixedAddr (c : ConfigData) (r : Addr) :
    findRegister c (fixedAddr r) = c.register? r := by
  simp [findRegister]

theorem addrOf_of_le {a : Word} (h : a.toNat ≤ 127) : addrOf a = some (a.setWidth 7) := if_pos h

theorem addrOf_of_gt {a : Word} (h : 127 < a.toNat) : addrOf a = none := if_neg (by omega)

/-- A found descriptor is the registry's, at its own address, which is the operand's. -/
theorem findRegister_some {c : ConfigData} {a : Word} {d : RegisterDescriptor} (h : findRegister c a = some d) :
    c.register? d.address = some d ∧ d.address = a.setWidth 7 ∧ a.toNat ≤ 127 := by
  by_cases ha : a.toNat ≤ 127
  · simp only [findRegister, addrOf_of_le ha] at h
    have := register?_address h
    exact ⟨this ▸ h, this, ha⟩
  · simp [findRegister, addrOf_of_gt (by omega : 127 < a.toNat)] at h

theorem writableAt_of_found {c : ConfigData} {r : Addr} {d : RegisterDescriptor} (h : c.register? r = some d) :
    writableAt c r = d.writable := by
  simp [writableAt, h]

theorem exists_of_writableAt {c : ConfigData} {r : Addr} (h : writableAt c r = true) :
    ∃ d, c.register? r = some d ∧ d.writable = true ∧ d.address = r := by
  unfold writableAt at h
  cases hd : c.register? r with
  | none => simp [hd] at h
  | some d => exact ⟨d, rfl, by simpa [hd] using h, register?_address hd⟩

/-! ## A valid configuration -/

theorem config_parts (c : Config) :
    c.parametersValid = true ∧ c.registryValid = true ∧ c.fieldsValid = true ∧ c.registerRolesValid = true ∧
      c.fieldRolesValid = true := by
  simpa [ConfigData.valid, and_assoc] using c.ok

theorem clockHz_pos (c : Config) : 0 < c.clockHz := by
  have := (config_parts c).1
  simp only [ConfigData.parametersValid, Bool.and_eq_true, decide_eq_true_eq] at this
  exact this.1.1

theorem fullSteps_pos (c : Config) : 0 < c.fullSteps := by
  have := (config_parts c).1
  simp only [ConfigData.parametersValid, Bool.and_eq_true, decide_eq_true_eq] at this
  exact this.1.2

theorem rSense_pos (c : Config) : 0 < c.rSense := by
  have := (config_parts c).1
  simp only [ConfigData.parametersValid, Bool.and_eq_true, decide_eq_true_eq] at this
  exact this.2

/-- R7: every role register is known. -/
theorem role_known (c : Config) {r : Addr} (h : r ∈ c.roleAddresses) : ∃ d, c.register? r = some d := by
  have := (config_parts c).2.2.2.1
  simp only [ConfigData.registerRolesValid, Bool.and_eq_true, List.all_eq_true] at this
  exact Option.isSome_iff_exists.mp (this.1.1 r h)

theorem xactual_known (c : Config) : ∃ d, c.register? c.regs.xactual = some d ∧ d.hwRead = true := by
  have := (config_parts c).2.2.2.1
  simp only [ConfigData.registerRolesValid, Bool.and_eq_true, Option.any_eq_true] at this
  obtain ⟨d, hd, hv⟩ := this.1.2
  exact ⟨d, hd, by simp [RegisterDescriptor.hwRead, hv]⟩

theorem vactual_known (c : Config) : ∃ d, c.register? c.regs.vactual = some d ∧ d.hwRead = true := by
  have := (config_parts c).2.2.2.1
  simp only [ConfigData.registerRolesValid, Bool.and_eq_true, Option.any_eq_true] at this
  obtain ⟨d, hd, hv⟩ := this.2
  exact ⟨d, hd, by simp [RegisterDescriptor.hwRead, hv]⟩

/-- R32, R111: a found field fits its register, and that register is known: a lookup after it never fails. -/
theorem findField_some (c : Config) {f : Word} {F : FieldDescriptor} (h : findField c.toConfigData f = some F) :
    F.fits = true ∧ ∃ d, c.register? F.reg = some d := by
  have := (config_parts c).2.2.1
  simp only [ConfigData.fieldsValid, Bool.and_eq_true, List.all_eq_true] at this
  simp only [findField, ConfigData.field?, Option.map_eq_some_iff] at h
  obtain ⟨e, he, rfl⟩ := h
  have := this.2 e (List.mem_of_find?_eq_some he)
  exact ⟨this.1, Option.isSome_iff_exists.mp this.2⟩

/-- R7: the four field roles. -/
theorem irun_role (c : Config) :
    ∃ F, findField c.toConfigData c.roleFields.irun = some F ∧ F.reg = c.regs.current := by
  have := (config_parts c).2.2.2.2
  simp only [ConfigData.fieldRolesValid, Bool.and_eq_true, Option.any_eq_true] at this
  obtain ⟨F, hF, h⟩ := this.1.1.1
  exact ⟨F, hF, by simpa using h⟩

theorem ihold_role (c : Config) :
    ∃ F, findField c.toConfigData c.roleFields.ihold = some F ∧ F.reg = c.regs.current := by
  have := (config_parts c).2.2.2.2
  simp only [ConfigData.fieldRolesValid, Bool.and_eq_true, Option.any_eq_true] at this
  obtain ⟨F, hF, h⟩ := this.1.1.2
  exact ⟨F, hF, by simpa using h⟩

theorem iholddelay_role (c : Config) :
    ∃ F, findField c.toConfigData c.roleFields.iholddelay = some F ∧ F.reg = c.regs.current := by
  have := (config_parts c).2.2.2.2
  simp only [ConfigData.fieldRolesValid, Bool.and_eq_true, Option.any_eq_true] at this
  obtain ⟨F, hF, h⟩ := this.1.2
  exact ⟨F, hF, by simpa using h.1⟩

theorem stealth_role (c : Config) :
    ∃ F, findField c.toConfigData c.roleFields.stealth = some F ∧ F.width = 1 := by
  have := (config_parts c).2.2.2.2
  simp only [ConfigData.fieldRolesValid, Bool.and_eq_true, Option.any_eq_true] at this
  obtain ⟨F, hF, h⟩ := this.2
  exact ⟨F, hF, by simpa using h⟩

end Sys2Proof.Machine
end

