-- ==== Sys2Proof/Laws/State.lean ====
section
/-! SUPPORT. One lemma for each field after each update of the state, so that no proof unfolds a record update. -/

namespace Sys2Proof.Machine

open Sys2Proof Sys2Proof.Safety

variable (s : State)

/-! ## `emit` -/

@[simp] theorem emit_cfg (e : Event) : (emit e s).cfg = s.cfg := rfl
@[simp] theorem emit_op (e : Event) : (emit e s).op = s.op := rfl
@[simp] theorem emit_a (e : Event) : (emit e s).a = s.a := rfl
@[simp] theorem emit_v (e : Event) : (emit e s).v = s.v := rfl
@[simp] theorem emit_w (e : Event) : (emit e s).w = s.w := rfl
@[simp] theorem emit_q0 (e : Event) : (emit e s).q0 = s.q0 := rfl
@[simp] theorem emit_q1 (e : Event) : (emit e s).q1 = s.q1 := rfl
@[simp] theorem emit_q2 (e : Event) : (emit e s).q2 = s.q2 := rfl
@[simp] theorem emit_q3 (e : Event) : (emit e s).q3 = s.q3 := rfl
@[simp] theorem emit_res (e : Event) : (emit e s).res = s.res := rfl
@[simp] theorem emit_resHeld (e : Event) : (emit e s).resHeld = s.resHeld := rfl
@[simp] theorem emit_qres (e : Event) : (emit e s).qres = s.qres := rfl
@[simp] theorem emit_qresHeld (e : Event) : (emit e s).qresHeld = s.qresHeld := rfl
@[simp] theorem emit_err (e : Event) : (emit e s).err = s.err := rfl
@[simp] theorem emit_seq (e : Event) : (emit e s).seq = s.seq := rfl
@[simp] theorem emit_cache (e : Event) : (emit e s).cache = s.cache := rfl
@[simp] theorem emit_txn (e : Event) : (emit e s).txn = s.txn := rfl
@[simp] theorem emit_answers (e : Event) : (emit e s).answers = s.answers := rfl
@[simp] theorem emit_host (e : Event) : (emit e s).host = s.host := rfl
@[simp] theorem emit_trace (e : Event) : (emit e s).trace = s.trace ++ [e] := rfl
@[simp] theorem emit_draws (e : Event) : (emit e s).draws = s.draws := rfl

/-! ## `setCache` -/

@[simp] theorem setCache_cfg (r : Addr) (x : Word) : (setCache r x s).cfg = s.cfg := rfl
@[simp] theorem setCache_op (r : Addr) (x : Word) : (setCache r x s).op = s.op := rfl
@[simp] theorem setCache_a (r : Addr) (x : Word) : (setCache r x s).a = s.a := rfl
@[simp] theorem setCache_v (r : Addr) (x : Word) : (setCache r x s).v = s.v := rfl
@[simp] theorem setCache_w (r : Addr) (x : Word) : (setCache r x s).w = s.w := rfl
@[simp] theorem setCache_q0 (r : Addr) (x : Word) : (setCache r x s).q0 = s.q0 := rfl
@[simp] theorem setCache_q1 (r : Addr) (x : Word) : (setCache r x s).q1 = s.q1 := rfl
@[simp] theorem setCache_q2 (r : Addr) (x : Word) : (setCache r x s).q2 = s.q2 := rfl
@[simp] theorem setCache_q3 (r : Addr) (x : Word) : (setCache r x s).q3 = s.q3 := rfl
@[simp] theorem setCache_res (r : Addr) (x : Word) : (setCache r x s).res = s.res := rfl
@[simp] theorem setCache_resHeld (r : Addr) (x : Word) : (setCache r x s).resHeld = s.resHeld := rfl
@[simp] theorem setCache_qres (r : Addr) (x : Word) : (setCache r x s).qres = s.qres := rfl
@[simp] theorem setCache_qresHeld (r : Addr) (x : Word) : (setCache r x s).qresHeld = s.qresHeld := rfl
@[simp] theorem setCache_err (r : Addr) (x : Word) : (setCache r x s).err = s.err := rfl
@[simp] theorem setCache_seq (r : Addr) (x : Word) : (setCache r x s).seq = s.seq := rfl
@[simp] theorem setCache_cache (r : Addr) (x : Word) : (setCache r x s).cache = s.cache.set r.toNat x := rfl
@[simp] theorem setCache_txn (r : Addr) (x : Word) : (setCache r x s).txn = s.txn := rfl
@[simp] theorem setCache_answers (r : Addr) (x : Word) : (setCache r x s).answers = s.answers := rfl
@[simp] theorem setCache_host (r : Addr) (x : Word) : (setCache r x s).host = s.host := rfl
@[simp] theorem setCache_trace (r : Addr) (x : Word) : (setCache r x s).trace = s.trace := rfl
@[simp] theorem setCache_draws (r : Addr) (x : Word) : (setCache r x s).draws = s.draws := rfl

/-! ## `setRes` -/

@[simp] theorem setRes_cfg (x : Word) : (setRes x s).cfg = s.cfg := rfl
@[simp] theorem setRes_op (x : Word) : (setRes x s).op = s.op := rfl
@[simp] theorem setRes_a (x : Word) : (setRes x s).a = s.a := rfl
@[simp] theorem setRes_v (x : Word) : (setRes x s).v = s.v := rfl
@[simp] theorem setRes_w (x : Word) : (setRes x s).w = s.w := rfl
@[simp] theorem setRes_q0 (x : Word) : (setRes x s).q0 = s.q0 := rfl
@[simp] theorem setRes_q1 (x : Word) : (setRes x s).q1 = s.q1 := rfl
@[simp] theorem setRes_q2 (x : Word) : (setRes x s).q2 = s.q2 := rfl
@[simp] theorem setRes_q3 (x : Word) : (setRes x s).q3 = s.q3 := rfl
@[simp] theorem setRes_res (x : Word) : (setRes x s).res = x := rfl
@[simp] theorem setRes_resHeld (x : Word) : (setRes x s).resHeld = true := rfl
@[simp] theorem setRes_qres (x : Word) : (setRes x s).qres = s.qres := rfl
@[simp] theorem setRes_qresHeld (x : Word) : (setRes x s).qresHeld = s.qresHeld := rfl
@[simp] theorem setRes_err (x : Word) : (setRes x s).err = s.err := rfl
@[simp] theorem setRes_seq (x : Word) : (setRes x s).seq = s.seq := rfl
@[simp] theorem setRes_cache (x : Word) : (setRes x s).cache = s.cache := rfl
@[simp] theorem setRes_txn (x : Word) : (setRes x s).txn = s.txn := rfl
@[simp] theorem setRes_answers (x : Word) : (setRes x s).answers = s.answers := rfl
@[simp] theorem setRes_host (x : Word) : (setRes x s).host = s.host := rfl
@[simp] theorem setRes_trace (x : Word) : (setRes x s).trace = s.trace := rfl
@[simp] theorem setRes_draws (x : Word) : (setRes x s).draws = s.draws := rfl

/-! ## `setQres` -/

@[simp] theorem setQres_cfg (x : Quad) : (setQres x s).cfg = s.cfg := rfl
@[simp] theorem setQres_op (x : Quad) : (setQres x s).op = s.op := rfl
@[simp] theorem setQres_a (x : Quad) : (setQres x s).a = s.a := rfl
@[simp] theorem setQres_v (x : Quad) : (setQres x s).v = s.v := rfl
@[simp] theorem setQres_w (x : Quad) : (setQres x s).w = s.w := rfl
@[simp] theorem setQres_q0 (x : Quad) : (setQres x s).q0 = s.q0 := rfl
@[simp] theorem setQres_q1 (x : Quad) : (setQres x s).q1 = s.q1 := rfl
@[simp] theorem setQres_q2 (x : Quad) : (setQres x s).q2 = s.q2 := rfl
@[simp] theorem setQres_q3 (x : Quad) : (setQres x s).q3 = s.q3 := rfl
@[simp] theorem setQres_res (x : Quad) : (setQres x s).res = s.res := rfl
@[simp] theorem setQres_resHeld (x : Quad) : (setQres x s).resHeld = s.resHeld := rfl
@[simp] theorem setQres_qres (x : Quad) : (setQres x s).qres = x := rfl
@[simp] theorem setQres_qresHeld (x : Quad) : (setQres x s).qresHeld = true := rfl
@[simp] theorem setQres_err (x : Quad) : (setQres x s).err = s.err := rfl
@[simp] theorem setQres_seq (x : Quad) : (setQres x s).seq = s.seq := rfl
@[simp] theorem setQres_cache (x : Quad) : (setQres x s).cache = s.cache := rfl
@[simp] theorem setQres_txn (x : Quad) : (setQres x s).txn = s.txn := rfl
@[simp] theorem setQres_answers (x : Quad) : (setQres x s).answers = s.answers := rfl
@[simp] theorem setQres_host (x : Quad) : (setQres x s).host = s.host := rfl
@[simp] theorem setQres_trace (x : Quad) : (setQres x s).trace = s.trace := rfl
@[simp] theorem setQres_draws (x : Quad) : (setQres x s).draws = s.draws := rfl

/-! ## `setErr` -/

@[simp] theorem setErr_cfg (x : Byte) : (setErr x s).cfg = s.cfg := rfl
@[simp] theorem setErr_op (x : Byte) : (setErr x s).op = s.op := rfl
@[simp] theorem setErr_a (x : Byte) : (setErr x s).a = s.a := rfl
@[simp] theorem setErr_v (x : Byte) : (setErr x s).v = s.v := rfl
@[simp] theorem setErr_w (x : Byte) : (setErr x s).w = s.w := rfl
@[simp] theorem setErr_q0 (x : Byte) : (setErr x s).q0 = s.q0 := rfl
@[simp] theorem setErr_q1 (x : Byte) : (setErr x s).q1 = s.q1 := rfl
@[simp] theorem setErr_q2 (x : Byte) : (setErr x s).q2 = s.q2 := rfl
@[simp] theorem setErr_q3 (x : Byte) : (setErr x s).q3 = s.q3 := rfl
@[simp] theorem setErr_res (x : Byte) : (setErr x s).res = s.res := rfl
@[simp] theorem setErr_resHeld (x : Byte) : (setErr x s).resHeld = s.resHeld := rfl
@[simp] theorem setErr_qres (x : Byte) : (setErr x s).qres = s.qres := rfl
@[simp] theorem setErr_qresHeld (x : Byte) : (setErr x s).qresHeld = s.qresHeld := rfl
@[simp] theorem setErr_err (x : Byte) : (setErr x s).err = x := rfl
@[simp] theorem setErr_seq (x : Byte) : (setErr x s).seq = s.seq := rfl
@[simp] theorem setErr_cache (x : Byte) : (setErr x s).cache = s.cache := rfl
@[simp] theorem setErr_txn (x : Byte) : (setErr x s).txn = s.txn := rfl
@[simp] theorem setErr_answers (x : Byte) : (setErr x s).answers = s.answers := rfl
@[simp] theorem setErr_host (x : Byte) : (setErr x s).host = s.host := rfl
@[simp] theorem setErr_trace (x : Byte) : (setErr x s).trace = s.trace := rfl
@[simp] theorem setErr_draws (x : Byte) : (setErr x s).draws = s.draws := rfl

/-! ## `setTx` -/

@[simp] theorem setTx_cfg (f : Frame) : (setTx f s).cfg = s.cfg := rfl
@[simp] theorem setTx_op (f : Frame) : (setTx f s).op = s.op := rfl
@[simp] theorem setTx_a (f : Frame) : (setTx f s).a = s.a := rfl
@[simp] theorem setTx_v (f : Frame) : (setTx f s).v = s.v := rfl
@[simp] theorem setTx_w (f : Frame) : (setTx f s).w = s.w := rfl
@[simp] theorem setTx_q0 (f : Frame) : (setTx f s).q0 = s.q0 := rfl
@[simp] theorem setTx_q1 (f : Frame) : (setTx f s).q1 = s.q1 := rfl
@[simp] theorem setTx_q2 (f : Frame) : (setTx f s).q2 = s.q2 := rfl
@[simp] theorem setTx_q3 (f : Frame) : (setTx f s).q3 = s.q3 := rfl
@[simp] theorem setTx_res (f : Frame) : (setTx f s).res = s.res := rfl
@[simp] theorem setTx_resHeld (f : Frame) : (setTx f s).resHeld = s.resHeld := rfl
@[simp] theorem setTx_qres (f : Frame) : (setTx f s).qres = s.qres := rfl
@[simp] theorem setTx_qresHeld (f : Frame) : (setTx f s).qresHeld = s.qresHeld := rfl
@[simp] theorem setTx_err (f : Frame) : (setTx f s).err = s.err := rfl
@[simp] theorem setTx_seq (f : Frame) : (setTx f s).seq = s.seq := rfl
@[simp] theorem setTx_cache (f : Frame) : (setTx f s).cache = s.cache := rfl
@[simp] theorem setTx_txn (f : Frame) : (setTx f s).txn = { s.txn with tx := f } := rfl
@[simp] theorem setTx_answers (f : Frame) : (setTx f s).answers = s.answers := rfl
@[simp] theorem setTx_host (f : Frame) : (setTx f s).host = s.host := rfl
@[simp] theorem setTx_trace (f : Frame) : (setTx f s).trace = s.trace := rfl
@[simp] theorem setTx_draws (f : Frame) : (setTx f s).draws = s.draws := rfl

/-! ## `goto` -/

@[simp] theorem goto_cfg (o : Byte) (k : Nat) (ph : Phase) : (goto o k ph s).cfg = s.cfg := rfl
@[simp] theorem goto_op (o : Byte) (k : Nat) (ph : Phase) : (goto o k ph s).op = s.op := rfl
@[simp] theorem goto_a (o : Byte) (k : Nat) (ph : Phase) : (goto o k ph s).a = s.a := rfl
@[simp] theorem goto_v (o : Byte) (k : Nat) (ph : Phase) : (goto o k ph s).v = s.v := rfl
@[simp] theorem goto_w (o : Byte) (k : Nat) (ph : Phase) : (goto o k ph s).w = s.w := rfl
@[simp] theorem goto_q0 (o : Byte) (k : Nat) (ph : Phase) : (goto o k ph s).q0 = s.q0 := rfl
@[simp] theorem goto_q1 (o : Byte) (k : Nat) (ph : Phase) : (goto o k ph s).q1 = s.q1 := rfl
@[simp] theorem goto_q2 (o : Byte) (k : Nat) (ph : Phase) : (goto o k ph s).q2 = s.q2 := rfl
@[simp] theorem goto_q3 (o : Byte) (k : Nat) (ph : Phase) : (goto o k ph s).q3 = s.q3 := rfl
@[simp] theorem goto_res (o : Byte) (k : Nat) (ph : Phase) : (goto o k ph s).res = s.res := rfl
@[simp] theorem goto_resHeld (o : Byte) (k : Nat) (ph : Phase) : (goto o k ph s).resHeld = s.resHeld := rfl
@[simp] theorem goto_qres (o : Byte) (k : Nat) (ph : Phase) : (goto o k ph s).qres = s.qres := rfl
@[simp] theorem goto_qresHeld (o : Byte) (k : Nat) (ph : Phase) : (goto o k ph s).qresHeld = s.qresHeld := rfl
@[simp] theorem goto_err (o : Byte) (k : Nat) (ph : Phase) : (goto o k ph s).err = s.err := rfl
@[simp] theorem goto_seq (o : Byte) (k : Nat) (ph : Phase) : (goto o k ph s).seq = .run o k ph := rfl
@[simp] theorem goto_cache (o : Byte) (k : Nat) (ph : Phase) : (goto o k ph s).cache = s.cache := rfl
@[simp] theorem goto_txn (o : Byte) (k : Nat) (ph : Phase) : (goto o k ph s).txn = s.txn := rfl
@[simp] theorem goto_answers (o : Byte) (k : Nat) (ph : Phase) : (goto o k ph s).answers = s.answers := rfl
@[simp] theorem goto_host (o : Byte) (k : Nat) (ph : Phase) : (goto o k ph s).host = s.host := rfl
@[simp] theorem goto_trace (o : Byte) (k : Nat) (ph : Phase) : (goto o k ph s).trace = s.trace := rfl
@[simp] theorem goto_draws (o : Byte) (k : Nat) (ph : Phase) : (goto o k ph s).draws = s.draws := rfl

/-! ## `succeed` -/

@[simp] theorem succeed_cfg : (succeed s).cfg = s.cfg := rfl
@[simp] theorem succeed_op : (succeed s).op = s.op := rfl
@[simp] theorem succeed_a : (succeed s).a = s.a := rfl
@[simp] theorem succeed_v : (succeed s).v = s.v := rfl
@[simp] theorem succeed_w : (succeed s).w = s.w := rfl
@[simp] theorem succeed_q0 : (succeed s).q0 = s.q0 := rfl
@[simp] theorem succeed_q1 : (succeed s).q1 = s.q1 := rfl
@[simp] theorem succeed_q2 : (succeed s).q2 = s.q2 := rfl
@[simp] theorem succeed_q3 : (succeed s).q3 = s.q3 := rfl
@[simp] theorem succeed_res : (succeed s).res = s.res := rfl
@[simp] theorem succeed_resHeld : (succeed s).resHeld = s.resHeld := rfl
@[simp] theorem succeed_qres : (succeed s).qres = s.qres := rfl
@[simp] theorem succeed_qresHeld : (succeed s).qresHeld = s.qresHeld := rfl
@[simp] theorem succeed_err : (succeed s).err = 0 := rfl
@[simp] theorem succeed_seq : (succeed s).seq = .idle := rfl
@[simp] theorem succeed_cache : (succeed s).cache = s.cache := rfl
@[simp] theorem succeed_txn : (succeed s).txn = s.txn := rfl
@[simp] theorem succeed_answers : (succeed s).answers = s.answers := rfl
@[simp] theorem succeed_host : (succeed s).host = s.host := rfl
@[simp] theorem succeed_trace : (succeed s).trace = s.trace := rfl
@[simp] theorem succeed_draws : (succeed s).draws = s.draws := rfl

/-! ## `resetInPlace` -/

@[simp] theorem resetInPlace_cfg : (resetInPlace s).cfg = s.cfg := rfl
@[simp] theorem resetInPlace_op : (resetInPlace s).op = 0 := rfl
@[simp] theorem resetInPlace_a : (resetInPlace s).a = 0 := rfl
@[simp] theorem resetInPlace_v : (resetInPlace s).v = 0 := rfl
@[simp] theorem resetInPlace_w : (resetInPlace s).w = 0 := rfl
@[simp] theorem resetInPlace_q0 : (resetInPlace s).q0 = 0 := rfl
@[simp] theorem resetInPlace_q1 : (resetInPlace s).q1 = 0 := rfl
@[simp] theorem resetInPlace_q2 : (resetInPlace s).q2 = 0 := rfl
@[simp] theorem resetInPlace_q3 : (resetInPlace s).q3 = 0 := rfl
@[simp] theorem resetInPlace_res : (resetInPlace s).res = 0 := rfl
@[simp] theorem resetInPlace_resHeld : (resetInPlace s).resHeld = false := rfl
@[simp] theorem resetInPlace_qres : (resetInPlace s).qres = 0 := rfl
@[simp] theorem resetInPlace_qresHeld : (resetInPlace s).qresHeld = false := rfl
@[simp] theorem resetInPlace_err : (resetInPlace s).err = 0 := rfl
@[simp] theorem resetInPlace_seq : (resetInPlace s).seq = .idle := rfl
@[simp] theorem resetInPlace_cache : (resetInPlace s).cache = Vector.replicate 128 0 := rfl
@[simp] theorem resetInPlace_txn : (resetInPlace s).txn = { tx := ⟨0, 0, 0, 0, 0⟩, ok := true, rx := ⟨0, 0, 0, 0, 0⟩ } := rfl
@[simp] theorem resetInPlace_answers : (resetInPlace s).answers = s.answers := rfl
@[simp] theorem resetInPlace_host : (resetInPlace s).host = s.host := rfl
@[simp] theorem resetInPlace_trace : (resetInPlace s).trace = s.trace := rfl
@[simp] theorem resetInPlace_draws : (resetInPlace s).draws = s.draws := rfl

/-! ## `afterWrite` and `afterRead` -/

@[simp] theorem afterWrite_cfg (r : Addr) (x : Word) (ans : Answer) (rest : List Answer) :
    (afterWrite r x ans rest s).cfg = s.cfg := rfl
@[simp] theorem afterWrite_op (r : Addr) (x : Word) (ans : Answer) (rest : List Answer) :
    (afterWrite r x ans rest s).op = s.op := rfl
@[simp] theorem afterWrite_a (r : Addr) (x : Word) (ans : Answer) (rest : List Answer) :
    (afterWrite r x ans rest s).a = s.a := rfl
@[simp] theorem afterWrite_v (r : Addr) (x : Word) (ans : Answer) (rest : List Answer) :
    (afterWrite r x ans rest s).v = s.v := rfl
@[simp] theorem afterWrite_w (r : Addr) (x : Word) (ans : Answer) (rest : List Answer) :
    (afterWrite r x ans rest s).w = s.w := rfl
@[simp] theorem afterWrite_q0 (r : Addr) (x : Word) (ans : Answer) (rest : List Answer) :
    (afterWrite r x ans rest s).q0 = s.q0 := rfl
@[simp] theorem afterWrite_q1 (r : Addr) (x : Word) (ans : Answer) (rest : List Answer) :
    (afterWrite r x ans rest s).q1 = s.q1 := rfl
@[simp] theorem afterWrite_q2 (r : Addr) (x : Word) (ans : Answer) (rest : List Answer) :
    (afterWrite r x ans rest s).q2 = s.q2 := rfl
@[simp] theorem afterWrite_q3 (r : Addr) (x : Word) (ans : Answer) (rest : List Answer) :
    (afterWrite r x ans rest s).q3 = s.q3 := rfl
@[simp] theorem afterWrite_res (r : Addr) (x : Word) (ans : Answer) (rest : List Answer) :
    (afterWrite r x ans rest s).res = s.res := rfl
@[simp] theorem afterWrite_resHeld (r : Addr) (x : Word) (ans : Answer) (rest : List Answer) :
    (afterWrite r x ans rest s).resHeld = s.resHeld := rfl
@[simp] theorem afterWrite_qres (r : Addr) (x : Word) (ans : Answer) (rest : List Answer) :
    (afterWrite r x ans rest s).qres = s.qres := rfl
@[simp] theorem afterWrite_qresHeld (r : Addr) (x : Word) (ans : Answer) (rest : List Answer) :
    (afterWrite r x ans rest s).qresHeld = s.qresHeld := rfl
@[simp] theorem afterWrite_err (r : Addr) (x : Word) (ans : Answer) (rest : List Answer) :
    (afterWrite r x ans rest s).err = s.err := rfl
@[simp] theorem afterWrite_seq (r : Addr) (x : Word) (ans : Answer) (rest : List Answer) :
    (afterWrite r x ans rest s).seq = s.seq := rfl
@[simp] theorem afterWrite_cache (r : Addr) (x : Word) (ans : Answer) (rest : List Answer) :
    (afterWrite r x ans rest s).cache = s.cache.set r.toNat x := rfl
@[simp] theorem afterWrite_txn (r : Addr) (x : Word) (ans : Answer) (rest : List Answer) :
    (afterWrite r x ans rest s).txn = { tx := Frame.write r x, ok := ans.ok, rx := ans.rx } := rfl
@[simp] theorem afterWrite_answers (r : Addr) (x : Word) (ans : Answer) (rest : List Answer) :
    (afterWrite r x ans rest s).answers = rest := rfl
@[simp] theorem afterWrite_host (r : Addr) (x : Word) (ans : Answer) (rest : List Answer) :
    (afterWrite r x ans rest s).host = s.host := rfl
@[simp] theorem afterWrite_trace (r : Addr) (x : Word) (ans : Answer) (rest : List Answer) :
    (afterWrite r x ans rest s).trace = s.trace ++ bracketEvents s.cfg.toConfigData (Frame.write r x) := rfl
@[simp] theorem afterWrite_draws (r : Addr) (x : Word) (ans : Answer) (rest : List Answer) :
    (afterWrite r x ans rest s).draws = s.draws := rfl
@[simp] theorem afterRead_cfg (f : Frame) (ans : Answer) (rest : List Answer) :
    (afterRead f ans rest s).cfg = s.cfg := rfl
@[simp] theorem afterRead_op (f : Frame) (ans : Answer) (rest : List Answer) :
    (afterRead f ans rest s).op = s.op := rfl
@[simp] theorem afterRead_a (f : Frame) (ans : Answer) (rest : List Answer) :
    (afterRead f ans rest s).a = s.a := rfl
@[simp] theorem afterRead_v (f : Frame) (ans : Answer) (rest : List Answer) :
    (afterRead f ans rest s).v = s.v := rfl
@[simp] theorem afterRead_w (f : Frame) (ans : Answer) (rest : List Answer) :
    (afterRead f ans rest s).w = s.w := rfl
@[simp] theorem afterRead_q0 (f : Frame) (ans : Answer) (rest : List Answer) :
    (afterRead f ans rest s).q0 = s.q0 := rfl
@[simp] theorem afterRead_q1 (f : Frame) (ans : Answer) (rest : List Answer) :
    (afterRead f ans rest s).q1 = s.q1 := rfl
@[simp] theorem afterRead_q2 (f : Frame) (ans : Answer) (rest : List Answer) :
    (afterRead f ans rest s).q2 = s.q2 := rfl
@[simp] theorem afterRead_q3 (f : Frame) (ans : Answer) (rest : List Answer) :
    (afterRead f ans rest s).q3 = s.q3 := rfl
@[simp] theorem afterRead_res (f : Frame) (ans : Answer) (rest : List Answer) :
    (afterRead f ans rest s).res = s.res := rfl
@[simp] theorem afterRead_resHeld (f : Frame) (ans : Answer) (rest : List Answer) :
    (afterRead f ans rest s).resHeld = s.resHeld := rfl
@[simp] theorem afterRead_qres (f : Frame) (ans : Answer) (rest : List Answer) :
    (afterRead f ans rest s).qres = s.qres := rfl
@[simp] theorem afterRead_qresHeld (f : Frame) (ans : Answer) (rest : List Answer) :
    (afterRead f ans rest s).qresHeld = s.qresHeld := rfl
@[simp] theorem afterRead_err (f : Frame) (ans : Answer) (rest : List Answer) :
    (afterRead f ans rest s).err = s.err := rfl
@[simp] theorem afterRead_seq (f : Frame) (ans : Answer) (rest : List Answer) :
    (afterRead f ans rest s).seq = s.seq := rfl
@[simp] theorem afterRead_cache (f : Frame) (ans : Answer) (rest : List Answer) :
    (afterRead f ans rest s).cache = s.cache := rfl
@[simp] theorem afterRead_txn (f : Frame) (ans : Answer) (rest : List Answer) :
    (afterRead f ans rest s).txn = { tx := f, ok := ans.ok, rx := ans.rx } := rfl
@[simp] theorem afterRead_answers (f : Frame) (ans : Answer) (rest : List Answer) :
    (afterRead f ans rest s).answers = rest := rfl
@[simp] theorem afterRead_host (f : Frame) (ans : Answer) (rest : List Answer) :
    (afterRead f ans rest s).host = s.host := rfl
@[simp] theorem afterRead_trace (f : Frame) (ans : Answer) (rest : List Answer) :
    (afterRead f ans rest s).trace = s.trace ++ bracketEvents s.cfg.toConfigData f := rfl
@[simp] theorem afterRead_draws (f : Frame) (ans : Answer) (rest : List Answer) :
    (afterRead f ans rest s).draws = s.draws := rfl

/-! ## `afterAnswered` and a planned write's draws -/

@[simp] theorem afterAnswered_cfg (r : Addr) (x : Word) : (afterAnswered r x s).cfg = s.cfg := by
  unfold afterAnswered; split <;> rfl
@[simp] theorem afterAnswered_op (r : Addr) (x : Word) : (afterAnswered r x s).op = s.op := by
  unfold afterAnswered; split <;> rfl
@[simp] theorem afterAnswered_a (r : Addr) (x : Word) : (afterAnswered r x s).a = s.a := by
  unfold afterAnswered; split <;> rfl
@[simp] theorem afterAnswered_v (r : Addr) (x : Word) : (afterAnswered r x s).v = s.v := by
  unfold afterAnswered; split <;> rfl
@[simp] theorem afterAnswered_w (r : Addr) (x : Word) : (afterAnswered r x s).w = s.w := by
  unfold afterAnswered; split <;> rfl
@[simp] theorem afterAnswered_q0 (r : Addr) (x : Word) : (afterAnswered r x s).q0 = s.q0 := by
  unfold afterAnswered; split <;> rfl
@[simp] theorem afterAnswered_q1 (r : Addr) (x : Word) : (afterAnswered r x s).q1 = s.q1 := by
  unfold afterAnswered; split <;> rfl
@[simp] theorem afterAnswered_q2 (r : Addr) (x : Word) : (afterAnswered r x s).q2 = s.q2 := by
  unfold afterAnswered; split <;> rfl
@[simp] theorem afterAnswered_q3 (r : Addr) (x : Word) : (afterAnswered r x s).q3 = s.q3 := by
  unfold afterAnswered; split <;> rfl
@[simp] theorem afterAnswered_res (r : Addr) (x : Word) : (afterAnswered r x s).res = s.res := by
  unfold afterAnswered; split <;> rfl
@[simp] theorem afterAnswered_resHeld (r : Addr) (x : Word) : (afterAnswered r x s).resHeld = s.resHeld := by
  unfold afterAnswered; split <;> rfl
@[simp] theorem afterAnswered_qres (r : Addr) (x : Word) : (afterAnswered r x s).qres = s.qres := by
  unfold afterAnswered; split <;> rfl
@[simp] theorem afterAnswered_qresHeld (r : Addr) (x : Word) : (afterAnswered r x s).qresHeld = s.qresHeld := by
  unfold afterAnswered; split <;> rfl
@[simp] theorem afterAnswered_err (r : Addr) (x : Word) : (afterAnswered r x s).err = s.err := by
  unfold afterAnswered; split <;> rfl
@[simp] theorem afterAnswered_seq (r : Addr) (x : Word) : (afterAnswered r x s).seq = s.seq := by
  unfold afterAnswered; split <;> rfl
@[simp] theorem afterAnswered_host (r : Addr) (x : Word) : (afterAnswered r x s).host = s.host := by
  unfold afterAnswered; split <;> rfl
@[simp] theorem afterAnswered_cache (r : Addr) (x : Word) :
    (afterAnswered r x s).cache = s.cache.set r.toNat x := by
  unfold afterAnswered; split <;> rfl

@[simp] theorem draw_cfg (w : PlannedWrite) : (w.draw s).cfg = s.cfg := rfl
@[simp] theorem draw_op (w : PlannedWrite) : (w.draw s).op = s.op := rfl
@[simp] theorem draw_a (w : PlannedWrite) : (w.draw s).a = s.a := rfl
@[simp] theorem draw_v (w : PlannedWrite) : (w.draw s).v = s.v := rfl
@[simp] theorem draw_w (w : PlannedWrite) : (w.draw s).w = s.w := rfl
@[simp] theorem draw_q0 (w : PlannedWrite) : (w.draw s).q0 = s.q0 := rfl
@[simp] theorem draw_q1 (w : PlannedWrite) : (w.draw s).q1 = s.q1 := rfl
@[simp] theorem draw_q2 (w : PlannedWrite) : (w.draw s).q2 = s.q2 := rfl
@[simp] theorem draw_q3 (w : PlannedWrite) : (w.draw s).q3 = s.q3 := rfl
@[simp] theorem draw_res (w : PlannedWrite) : (w.draw s).res = s.res := rfl
@[simp] theorem draw_resHeld (w : PlannedWrite) : (w.draw s).resHeld = s.resHeld := rfl
@[simp] theorem draw_qres (w : PlannedWrite) : (w.draw s).qres = s.qres := rfl
@[simp] theorem draw_qresHeld (w : PlannedWrite) : (w.draw s).qresHeld = s.qresHeld := rfl
@[simp] theorem draw_err (w : PlannedWrite) : (w.draw s).err = s.err := rfl
@[simp] theorem draw_seq (w : PlannedWrite) : (w.draw s).seq = s.seq := rfl
@[simp] theorem draw_host (w : PlannedWrite) : (w.draw s).host = s.host := rfl
@[simp] theorem draw_cache (w : PlannedWrite) : (w.draw s).cache = s.cache := rfl
@[simp] theorem draw_txn (w : PlannedWrite) : (w.draw s).txn = s.txn := rfl
@[simp] theorem draw_answers (w : PlannedWrite) : (w.draw s).answers = s.answers := rfl
@[simp] theorem draw_trace (w : PlannedWrite) : (w.draw s).trace = s.trace := rfl
@[simp] theorem draw_draws (w : PlannedWrite) : (w.draw s).draws = s.draws + w.drawn := rfl
@[simp] theorem draw_zero (r : Addr) (x : Word) : PlannedWrite.draw ⟨r, x, 0⟩ s = s := rfl

end Sys2Proof.Machine
end

