-- ==== Sys2Proof/Laws/Ops.lean ====
section
/-! SUPPORT. One lemma for each shared operation that says once what it does: the equations under given answers of the
transport, and `Ended`, which says everything a sub-operation can do, whatever it ends with. -/

namespace Sys2Proof.Machine

open Sys2Proof Sys2Proof.Safety

variable {s t : State}

/-! ## Cache -/

@[simp] theorem cacheAt_setCache_self (s : State) (r : Addr) (x : Word) : cacheAt (setCache r x s) r = x := by
  simp [cacheAt, setCache]

theorem cacheAt_setCache_ne (s : State) {a r : Addr} (x : Word) (h : a ≠ r) :
    cacheAt (setCache r x s) a = cacheAt s a := by
  have : r.toNat ≠ a.toNat := fun e => h (BitVec.eq_of_toNat_eq e.symm)
  simp [cacheAt, setCache, this]

theorem cacheAt_congr (h : t.cache = s.cache) (a : Addr) : cacheAt t a = cacheAt s a := by
  simp [cacheAt, h]

/-! ## Lookups -/

theorem lookup_some {a : Word} {d : RegisterDescriptor} (h : findRegister s.cfg.toConfigData a = some d) :
    lookup a s = .done d s := by
  simp [lookup, h]

theorem lookup_none {a : Word} (h : findRegister s.cfg.toConfigData a = none) :
    lookup a s = .err .invalidParameter s := by
  simp [lookup, h]

theorem field_some {f : Word} {F : FieldDescriptor} (h : findField s.cfg.toConfigData f = some F) :
    field f s = .done F s := by
  simp [field, h]

theorem field_none {f : Word} (h : findField s.cfg.toConfigData f = none) :
    field f s = .err .invalidParameter s := by
  simp [field, h]

@[simp] theorem andThen_done {α β : Type} (x : α) (s : State) (f : α → State → Reply β) :
    (Reply.done x s).andThen f = f x s := rfl

@[simp] theorem andThen_err {α β : Type} (k : ErrKind) (s : State) (f : α → State → Reply β) :
    (Reply.err k s : Reply α).andThen f = .err k s := rfl

/-! ## Brackets and the bus primitives under a given answer -/

theorem takeAnswer_cons {ans : Answer} {rest : List Answer} (h : s.answers = ans :: rest) :
    takeAnswer s = (ans, { s with answers := rest }) := by
  simp [takeAnswer, h]

/-- R131: one bracket, its answer given. -/
theorem bracket_cons (f : Frame) {ans : Answer} {rest : List Answer} (h : s.answers = ans :: rest) :
    bracket f s = afterRead f ans rest s := by
  simp [bracket, transfer, takeAnswer, emit, h, afterRead, bracketEvents]

/-- R133. -/
theorem memWrite_cons (r : Addr) (x : Word) {ans : Answer} {rest : List Answer} (h : s.answers = ans :: rest) :
    memWrite r x s = if ans.ok then .done () (afterRead (Frame.write r x) ans rest s)
      else .err .transferFailed (afterRead (Frame.write r x) ans rest s) := by
  simp only [memWrite, bracket_cons _ h]
  rfl

theorem memRead_failed1 (r : Addr) {ans : Answer} {rest : List Answer} (h : s.answers = ans :: rest)
    (hf : ans.ok = false) : memRead r s = .err .transferFailed (afterRead (Frame.readReq r) ans rest s) := by
  simp only [memRead, bracket_cons _ h]
  simp [afterRead, hf]

/-- R134, the first transfer successful. -/
theorem memRead_cons2 (r : Addr) {ans1 ans2 : Answer} {rest : List Answer} (h : s.answers = ans1 :: ans2 :: rest)
    (h1 : ans1.ok = true) :
    memRead r s =
      if ans2.ok then
        .done ans2.rx.word (afterRead Frame.dummy ans2 rest (afterRead (Frame.readReq r) ans1 (ans2 :: rest) s))
      else .err .transferFailed
        (afterRead Frame.dummy ans2 rest (afterRead (Frame.readReq r) ans1 (ans2 :: rest) s)) := by
  have h2 : (afterRead (Frame.readReq r) ans1 (ans2 :: rest) s).answers = ans2 :: rest := rfl
  simp only [memRead, bracket_cons _ h, bracket_cons _ h2]
  exact if_pos h1

/-! ## `write`, `write_field` and `read` under given answers -/

theorem acceptWrite_unknown {a v : Word} (h : findRegister s.cfg.toConfigData a = none) :
    acceptWrite a v s = .err .invalidParameter s := by
  simp [acceptWrite, lookup_none h]

theorem acceptWrite_found {a v : Word} {d : RegisterDescriptor} (h : findRegister s.cfg.toConfigData a = some d) :
    acceptWrite a v s =
      if d.writable then .done d.address (setCache d.address v s) else .err .invalidParameter s := by
  simp [acceptWrite, lookup_some h]

/-- R135 with R136 and R133: an accepted write, its transfer answered. -/
theorem writeReg_cons {a v : Word} {d : RegisterDescriptor} {ans : Answer} {rest : List Answer}
    (h : findRegister s.cfg.toConfigData a = some d) (hw : d.writable = true) (ha : s.answers = ans :: rest) :
    writeReg a v s = if ans.ok then .done () (afterWrite d.address v ans rest s)
      else .err .transferFailed (afterWrite d.address v ans rest s) := by
  have h2 : (setCache d.address v s).answers = ans :: rest := ha
  simp only [writeReg, acceptWrite_found h, hw, if_true, andThen_done, memWrite_cons _ _ h2]
  rfl

theorem writeReg_fixed {r : Addr} {v : Word} {ans : Answer} {rest : List Answer}
    (hw : writableAt s.cfg.toConfigData r = true) (ha : s.answers = ans :: rest) :
    writeReg (fixedAddr r) v s = if ans.ok then .done () (afterWrite r v ans rest s)
      else .err .transferFailed (afterWrite r v ans rest s) := by
  obtain ⟨d, hd, hdw, rfl⟩ := exists_of_writableAt hw
  exact writeReg_cons (by simpa using hd) hdw ha

/-- R137, its transfer answered. -/
theorem writeField_cons {f v : Word} {F : FieldDescriptor} {ans : Answer} {rest : List Answer}
    (h : findField s.cfg.toConfigData f = some F) (hw : writableAt s.cfg.toConfigData F.reg = true)
    (ha : s.answers = ans :: rest) :
    writeField f v s =
      if ans.ok then .done () (afterWrite F.reg (fieldCompose F (cacheAt s F.reg) v) ans rest s)
      else .err .transferFailed (afterWrite F.reg (fieldCompose F (cacheAt s F.reg) v) ans rest s) := by
  obtain ⟨d, hd, hdw, -⟩ := exists_of_writableAt hw
  have h2 : (setCache F.reg (fieldCompose F (cacheAt s F.reg) v) s).answers = ans :: rest := ha
  simp only [writeField, acceptFieldWrite, field_some h, andThen_done,
    lookup_some (show findRegister s.cfg.toConfigData (fixedAddr F.reg) = some d by simpa using hd), hdw, if_true,
    memWrite_cons _ _ h2]
  rfl

theorem readReg_cached {a : Word} {d : RegisterDescriptor} (h : findRegister s.cfg.toConfigData a = some d)
    (hr : d.hwRead = false) : readReg a s = .done (cacheAt s d.address) s := by
  simp [readReg, lookup_some h, hr]

theorem readReg_hardware {a : Word} {d : RegisterDescriptor} (h : findRegister s.cfg.toConfigData a = some d)
    (hr : d.hwRead = true) : readReg a s = memRead d.address s := by
  simp [readReg, lookup_some h, hr]

/-! ## Commands -/

theorem command_idle (body : State → Reply Unit) (h : s.seq = .idle) : command body s = .next (finish (body s)) := by
  simp [command, h]

theorem command_busy (body : State → Reply Unit) {op : Byte} {k : Nat} {ph : Phase} (h : s.seq = .run op k ph) :
    command body s = .refused .busy := by
  simp [command, h]

theorem succeed_of_idle (h : s.seq = .idle) : succeed s = { s with err := 0 } := by
  cases s; simp_all [succeed, setErr]

/-! ## Everything a sub-operation can do -/

/-- The first `n` answers are all `ok`. -/
def AllOk (answers : List Answer) (n : Nat) : Prop :=
  ∀ j, j < n → ∀ ans, answers[j]? = some ans → ans.ok = true

/-- Of the first `n` answers the last is a failure and the others are `ok`. -/
def LastFailed (answers : List Answer) (n : Nat) : Prop :=
  0 < n ∧ AllOk answers (n - 1) ∧ ∀ ans, answers[n - 1]? = some ans → ans.ok = false

/-- What lies between two states of one command: the frames sent, each in its bracket with one answer taken, the registers
written, and everything else as it was. -/
structure Ran (s t : State) (sent : List Frame) (wrote : List Addr) : Prop where
  cfg : t.cfg = s.cfg
  op : t.op = s.op
  a : t.a = s.a
  v : t.v = s.v
  w : t.w = s.w
  q0 : t.q0 = s.q0
  q1 : t.q1 = s.q1
  q2 : t.q2 = s.q2
  q3 : t.q3 = s.q3
  res : t.res = s.res
  resHeld : t.resHeld = s.resHeld
  qres : t.qres = s.qres
  qresHeld : t.qresHeld = s.qresHeld
  err : t.err = s.err
  seq : t.seq = s.seq
  host : t.host = s.host
  trace : t.trace = s.trace ++ sent.flatMap (bracketEvents s.cfg.toConfigData)
  answers : t.answers = s.answers.drop sent.length
  frames : ∀ f ∈ sent, blockFrame f = true
  writable : ∀ r ∈ wrote, writableAt s.cfg.toConfigData r = true
  cache : ∀ r, r ∉ wrote → cacheAt t r = cacheAt s r

theorem Ran.refl (s : State) : Ran s s [] [] := by
  constructor <;> simp

theorem Ran.trans {s t u : State} {f1 f2 : List Frame} {w1 w2 : List Addr} (h1 : Ran s t f1 w1) (h2 : Ran t u f2 w2) :
    Ran s u (f1 ++ f2) (w1 ++ w2) where
  cfg := h2.cfg.trans h1.cfg
  op := h2.op.trans h1.op
  a := h2.a.trans h1.a
  v := h2.v.trans h1.v
  w := h2.w.trans h1.w
  q0 := h2.q0.trans h1.q0
  q1 := h2.q1.trans h1.q1
  q2 := h2.q2.trans h1.q2
  q3 := h2.q3.trans h1.q3
  res := h2.res.trans h1.res
  resHeld := h2.resHeld.trans h1.resHeld
  qres := h2.qres.trans h1.qres
  qresHeld := h2.qresHeld.trans h1.qresHeld
  err := h2.err.trans h1.err
  seq := h2.seq.trans h1.seq
  host := h2.host.trans h1.host
  trace := by rw [h2.trace, h1.trace, h1.cfg]; simp
  answers := by rw [h2.answers, h1.answers]; simp
  frames := by simpa [or_imp, forall_and] using ⟨h1.frames, h2.frames⟩
  writable := by
    have := h2.writable
    rw [h1.cfg] at this
    simpa [or_imp, forall_and] using ⟨h1.writable, this⟩
  cache := by
    intro r hr
    simp only [List.mem_append, not_or] at hr
    rw [h2.cache r hr.2, h1.cache r hr.1]

/-- The state a reply leaves. -/
def Reply.state {α : Type} : Reply α → State
  | .done _ s => s
  | .err _ s => s

/-- How the answers taken fit the way a reply ends: a failed transfer is the last one; otherwise all succeeded. -/
def Reply.fits {α : Type} (answers : List Answer) (n : Nat) : Reply α → Prop
  | .done _ _ => AllOk answers n
  | .err .transferFailed _ => LastFailed answers n
  | .err _ _ => AllOk answers n

/-- A sub-operation from `s`: at most `n` frames, writes only at addresses of `P`, errors only of `E`. -/
def Ended {α : Type} (P : Addr → Prop) (E : ErrKind → Prop) (n : Nat) (s : State) (r : Reply α) : Prop :=
  ∃ sent wrote, Ran s r.state sent wrote ∧ sent.length ≤ n ∧ (∀ a ∈ wrote, P a) ∧ r.fits s.answers sent.length ∧
    ∀ k t, r = .err k t → E k

theorem AllOk.zero (l : List Answer) : AllOk l 0 := fun _ h => absurd h (Nat.not_lt_zero _)

theorem AllOk.append {l : List Answer} {m n : Nat} (h1 : AllOk l m) (h2 : AllOk (l.drop m) n) : AllOk l (m + n) := by
  intro j hj ans ha
  by_cases h : j < m
  · exact h1 j h ans ha
  · refine h2 (j - m) (by omega) ans ?_
    rw [List.getElem?_drop, show m + (j - m) = j by omega]
    exact ha

theorem LastFailed.append {l : List Answer} {m n : Nat} (h1 : AllOk l m) (h2 : LastFailed (l.drop m) n) :
    LastFailed l (m + n) := by
  obtain ⟨hn, ho, hf⟩ := h2
  refine ⟨by omega, ?_, ?_⟩
  · rw [show m + n - 1 = m + (n - 1) by omega]
    exact h1.append ho
  · intro ans ha
    refine hf ans ?_
    rw [List.getElem?_drop, show m + (n - 1) = m + n - 1 by omega]
    exact ha

theorem Ended.done {α : Type} {P : Addr → Prop} {E : ErrKind → Prop} {n : Nat} (x : α) (s : State) :
    Ended P E n s (.done x s) :=
  ⟨[], [], Ran.refl s, by simp, by simp, AllOk.zero _, by simp⟩

theorem Ended.err {α : Type} {P : Addr → Prop} {E : ErrKind → Prop} {n : Nat} {k : ErrKind} (hk : k ≠ .transferFailed)
    (he : E k) (s : State) : Ended P E n s (.err k s : Reply α) := by
  refine ⟨[], [], Ran.refl s, by simp, by simp, ?_, ?_⟩
  · cases k <;> simp_all [Reply.fits, AllOk]
  · intro k' t h
    cases h
    exact he

theorem Ended.mono {α : Type} {P P' : Addr → Prop} {E E' : ErrKind → Prop} {n n' : Nat} {s : State} {r : Reply α}
    (h : Ended P E n s r) (hP : ∀ a, P a → P' a) (hE : ∀ k, E k → E' k) (hn : n ≤ n') : Ended P' E' n' s r := by
  obtain ⟨sent, wrote, h1, h2, h3, h4, h5⟩ := h
  exact ⟨sent, wrote, h1, h2.trans hn, fun a ha => hP a (h3 a ha), h4, fun k t h => hE k (h5 k t h)⟩

/-- Sub-operations one after the other (R190, R240). -/
theorem Ended.andThen {α β : Type} {P : Addr → Prop} {E : ErrKind → Prop} {n m : Nat} {s : State} {r : Reply α}
    {f : α → State → Reply β} (h : Ended P E n s r)
    (hf : ∀ x t, t.cfg = s.cfg → Ended P E m t (f x t)) : Ended P E (n + m) s (r.andThen f) := by
  obtain ⟨sent, wrote, h1, h2, h3, h4, h5⟩ := h
  cases r with
  | err k t =>
    refine ⟨sent, wrote, h1, by omega, h3, ?_, ?_⟩
    · cases k <;> exact h4
    · intro k' t' h
      cases h
      exact h5 k t rfl
  | done x t =>
    obtain ⟨sent', wrote', g1, g2, g3, g4, g5⟩ := hf x t h1.cfg
    have ha : t.answers = s.answers.drop sent.length := h1.answers
    refine ⟨sent ++ sent', wrote ++ wrote', h1.trans g1, by simp; omega, ?_, ?_, g5⟩
    · simpa [or_imp, forall_and] using ⟨h3, g3⟩
    · simp only [andThen_done, List.length_append]
      cases hr : f x t with
      | done y u =>
        rw [hr, ha] at g4
        exact AllOk.append h4 g4
      | err k u =>
        rw [hr, ha] at g4
        cases k <;> first | exact AllOk.append h4 g4 | exact LastFailed.append h4 g4

end Sys2Proof.Machine
end

