-- ==== Sys2Proof/Laws/Ended.lean ====
section
/-! SUPPORT. Everything the shared sub-operations can do, whatever the transport answers: what they send, what they write,
how they end (spec/41_communicator.md R133 to R141). -/

namespace Sys2Proof.Machine

open Sys2Proof Sys2Proof.Safety

variable {s : State} {P : Addr → Prop} {E : ErrKind → Prop}

/-- R131: one bracket sends one frame and takes one answer; nothing else changes but the transaction in hand. -/
theorem bracket_ran (f : Frame) (hf : blockFrame f = true) (s : State) : Ran s (bracket f s) [f] [] := by
  cases h : s.answers with
  | cons ans rest =>
    rw [bracket_cons f h]
    constructor <;> simp [afterRead, cacheAt, hf, h]
  | nil =>
    constructor <;> simp [bracket, transfer, takeAnswer, emit, bracketEvents, cacheAt, hf, h]

/-- The answer in hand after a bracket is the one taken. -/
theorem bracket_ok (f : Frame) {ans : Answer} (h : s.answers[0]? = some ans) : (bracket f s).txn.ok = ans.ok := by
  cases ha : s.answers with
  | nil => simp [ha] at h
  | cons x xs =>
    rw [bracket_cons f ha]
    simp only [ha, List.getElem?_cons_zero, Option.some.injEq] at h
    simp [afterRead, h]

/-- A bracket whose answer is told apart by `ok`. -/
theorem bracket_fits (f : Frame) (s : State) :
    ((bracket f s).txn.ok = true → AllOk s.answers 1) ∧ ((bracket f s).txn.ok = false → LastFailed s.answers 1) := by
  constructor
  · intro h j hj ans ha
    obtain rfl : j = 0 := by omega
    rw [← bracket_ok f ha]
    exact h
  · intro h
    refine ⟨by omega, AllOk.zero _, ?_⟩
    intro ans ha
    rw [← bracket_ok f ha]
    exact h

/-- R133: `MemWrite` sends one frame. -/
theorem memWrite_ended (r : Addr) (x : Word) (hE : E .transferFailed) (s : State) : Ended P E 1 s (memWrite r x s) := by
  have hr := bracket_ran (Frame.write r x) (by simp) s
  have hf := bracket_fits (Frame.write r x) s
  unfold memWrite
  simp only
  by_cases h : (bracket (Frame.write r x) s).txn.ok = true
  · rw [if_pos h]
    exact ⟨_, _, hr, by simp, by simp, hf.1 h, by simp⟩
  · rw [if_neg h]
    refine ⟨_, _, hr, by simp, by simp, hf.2 (by simpa using h), ?_⟩
    intro k t hk
    cases hk
    exact hE

/-- R134: `MemRead` sends two frames, or one where the first transfer fails. -/
theorem memRead_ended (r : Addr) (hE : E .transferFailed) (s : State) : Ended P E 2 s (memRead r s) := by
  have hr1 := bracket_ran (Frame.readReq r) (by simp) s
  have hf1 := bracket_fits (Frame.readReq r) s
  have hr2 := bracket_ran Frame.dummy (by simp) (bracket (Frame.readReq r) s)
  have hf2 := bracket_fits Frame.dummy (bracket (Frame.readReq r) s)
  rw [hr1.answers] at hf2
  have hr := hr1.trans hr2
  unfold memRead
  simp only
  by_cases h1 : (bracket (Frame.readReq r) s).txn.ok = true
  · rw [if_pos h1]
    by_cases h2 : (bracket Frame.dummy (bracket (Frame.readReq r) s)).txn.ok = true
    · rw [if_pos h2]
      exact ⟨_, _, hr, by simp, by simp, (hf1.1 h1).append (hf2.1 h2), by simp⟩
    · rw [if_neg h2]
      refine ⟨_, _, hr, by simp, by simp, LastFailed.append (hf1.1 h1) (hf2.2 (by simpa using h2)), ?_⟩
      intro k t hk
      cases hk
      exact hE
  · rw [if_neg h1]
    refine ⟨_, _, hr1, by simp, by simp, hf1.2 (by simpa using h1), ?_⟩
    intro k t hk
    cases hk
    exact hE

/-- R110: a lookup changes nothing and can only raise InvalidParameter. -/
theorem lookup_ended (a : Word) (hE : E .invalidParameter) (s : State) : Ended P E 0 s (lookup a s) := by
  unfold lookup
  split
  · exact Ended.done _ s
  · exact Ended.err (by simp) hE s

theorem field_ended (f : Word) (hE : E .invalidParameter) (s : State) : Ended P E 0 s (field f s) := by
  unfold field
  split
  · exact Ended.done _ s
  · exact Ended.err (by simp) hE s

/-- R136: a cache entry written. -/
theorem setCache_ended {α : Type} (x : α) (r : Addr) (y : Word) (s : State) (hr : writableAt s.cfg.toConfigData r = true)
    (hP : P r) (n : Nat) : Ended P E n s (.done x (setCache r y s)) := by
  refine ⟨[], [r], ?_, by simp, by simpa using hP, AllOk.zero _, by simp⟩
  constructor <;> simp [Reply.state, hr]
  intro a ha
  exact cacheAt_setCache_ne s y ha

/-- R135, up to the bus. -/
theorem acceptWrite_ended (a v : Word) (hE : E .invalidParameter) (s : State)
    (hP : ∀ d, findRegister s.cfg.toConfigData a = some d → P d.address) : Ended P E 0 s (acceptWrite a v s) := by
  cases h : findRegister s.cfg.toConfigData a with
  | none => rw [acceptWrite_unknown h]; exact Ended.err (by simp) hE s
  | some d =>
    rw [acceptWrite_found h]
    split
    · rename_i hw
      refine setCache_ended _ _ _ s ?_ (hP d h) 0
      rw [writableAt_of_found (findRegister_some h).1]
      exact hw
    · exact Ended.err (by simp) hE s

/-- R135: `write`. -/
theorem writeReg_ended (a v : Word) (hI : E .invalidParameter) (hT : E .transferFailed) (s : State)
    (hP : ∀ d, findRegister s.cfg.toConfigData a = some d → P d.address) : Ended P E 1 s (writeReg a v s) :=
  (acceptWrite_ended a v hI s hP).andThen fun r t _ => memWrite_ended r v hT t

/-- R137, up to the bus. -/
theorem acceptFieldWrite_ended (f v : Word) (hE : E .invalidParameter) (s : State)
    (hP : ∀ F, findField s.cfg.toConfigData f = some F → P F.reg) : Ended P E 0 s (acceptFieldWrite f v s) := by
  unfold acceptFieldWrite
  cases h : findField s.cfg.toConfigData f with
  | none => rw [field_none h]; exact Ended.err (by simp) hE s
  | some F =>
    rw [field_some h, andThen_done]
    cases hl : s.cfg.register? F.reg with
    | none => rw [lookup_none (by simpa using hl)]; exact Ended.err (by simp) hE s
    | some d =>
      rw [lookup_some (by simpa using hl), andThen_done]
      split
      · rename_i hw
        refine setCache_ended _ _ _ s ?_ (hP F h) 0
        rw [writableAt_of_found hl]
        exact hw
      · exact Ended.err (by simp) hE s

/-- R137: `write_field`. -/
theorem writeField_ended (f v : Word) (hI : E .invalidParameter) (hT : E .transferFailed) (s : State)
    (hP : ∀ F, findField s.cfg.toConfigData f = some F → P F.reg) : Ended P E 1 s (writeField f v s) :=
  (acceptFieldWrite_ended f v hI s hP).andThen fun p t _ => memWrite_ended p.1 p.2 hT t

/-- R139: `read` writes nothing. -/
theorem readReg_ended (a : Word) (hI : E .invalidParameter) (hT : E .transferFailed) (s : State) :
    Ended P E 2 s (readReg a s) := by
  have := (lookup_ended (P := P) a hI s).andThen (m := 2)
    (f := fun d s => if d.hwRead then memRead d.address s else .done (cacheAt s d.address) s) ?_
  · simpa [readReg] using this
  · intro d t _
    split
    · exact memRead_ended _ hT t
    · exact Ended.done _ t

/-- R139 at a known address: the only error is a failed transfer. -/
theorem readReg_known_ended {a : Word} {d : RegisterDescriptor} (h : findRegister s.cfg.toConfigData a = some d)
    (hT : E .transferFailed) : Ended P E 2 s (readReg a s) := by
  rw [readReg, lookup_some h, andThen_done]
  split
  · exact memRead_ended _ hT s
  · exact Ended.done _ s

/-- R141: `read_field` writes nothing. -/
theorem readField_ended (f : Word) (hI : E .invalidParameter) (hT : E .transferFailed) (s : State) :
    Ended P E 2 s (readField f s) := by
  have := (field_ended (P := P) f hI s).andThen (m := 2 + 0)
    (f := fun F s => (readReg (fixedAddr F.reg) s).andThen fun w s => .done (fieldExtract F w) s)
    (fun F t _ => (readReg_ended _ hI hT t).andThen fun w u _ => Ended.done _ u)
  simpa [readField] using this

/-- A free word may be drawn: nothing else changes. -/
theorem velocityWord_ran (rpm : Rat) (s : State) : Ran s (velocityWord rpm s).2 [] [] := by
  unfold velocityWord
  simp only
  split
  · exact Ran.refl s
  · constructor <;> simp [drawWord, cacheAt]

end Sys2Proof.Machine
end

