-- ==== Sys2Proof/Laws/Commands.lean ====
section
/-! SUPPORT. Every command as one shape: a core that ends in one of the ways `Ended` lists, then its result delivered. One
lemma, `exec_command`, says so for all of them; what holds of every command follows from it. -/

namespace Sys2Proof.Machine

open Sys2Proof Sys2Proof.Safety

/-- The result registers written as the command's row says (R23, R89), nothing else but the counter of draws. -/
def Delivered (i : Instr) (u t : State) : Prop :=
  ∃ x h y g d, t = { u with res := x, resHeld := h, qres := y, qresHeld := g, draws := d } ∧
    (i.writesRes = true → h = true) ∧ (i.writesQres = true → g = true) ∧
    (i.writesRes = false → x = u.res ∧ h = u.resHeld) ∧ (i.writesQres = false → y = u.qres ∧ g = u.qresHeld)

/-- The body of command `i`: a core within the command's targets and errors, then the result delivered where it succeeded. -/
def CommandEnded (i : Instr) (s : State) (r : Reply Unit) : Prop :=
  ∃ c : Reply Unit, Ended (· ∈ writeTargets i s) (fun k => k.code ∈ errorsOf i) 4 s c ∧
    ((∃ k u, c = .err k u ∧ r = .err k u) ∨ (∃ u t, c = .done () u ∧ r = .done () t ∧ Delivered i u t))

/-- A command without a result. -/
theorem CommandEnded.plain {i : Instr} {s : State} {r : Reply Unit} (h1 : i.writesRes = false) (h2 : i.writesQres = false)
    (h : Ended (· ∈ writeTargets i s) (fun k => k.code ∈ errorsOf i) 4 s r) : CommandEnded i s r := by
  refine ⟨r, h, ?_⟩
  cases r with
  | err k u => exact .inl ⟨k, u, rfl, rfl⟩
  | done x u =>
    exact .inr ⟨u, u, rfl, rfl, u.res, u.resHeld, u.qres, u.qresHeld, u.draws, rfl, by simp [h1], by simp [h2], by simp,
      by simp⟩

/-- A command whose result is delivered at its end. -/
theorem CommandEnded.delivered {α : Type} {i : Instr} {s : State} {c : Reply α} {f : α → State → State}
    (hc : Ended (· ∈ writeTargets i s) (fun k => k.code ∈ errorsOf i) 4 s c)
    (hf : ∀ x u, Delivered i u (f x u)) : CommandEnded i s (c.andThen fun x s => .done () (f x s)) := by
  refine ⟨c.andThen fun x s => .done () s, ?_, ?_⟩
  · exact hc.andThen (m := 0) (fun x t _ => Ended.done _ t)
  · cases c with
    | err k u => exact .inl ⟨k, u, rfl, rfl⟩
    | done x u => exact .inr ⟨u, f x u, rfl, rfl, hf x u⟩

theorem delivered_setRes {i : Instr} (h1 : i.writesRes = true) (h2 : i.writesQres = false) (x : Word) (u : State) :
    Delivered i u (setRes x u) :=
  ⟨x, true, u.qres, u.qresHeld, u.draws, rfl, by simp, by simp [h2], by simp [h1], by simp⟩

theorem delivered_speed {i : Instr} (h1 : i.writesRes = false) (h2 : i.writesQres = true) (n : Nat) (u : State) :
    Delivered i u (deliverSpeed n u) := by
  unfold deliverSpeed speedQuad
  simp only
  split
  · exact ⟨u.res, u.resHeld, _, true, u.draws, rfl, by simp [h1], by simp, by simp, by simp [h2]⟩
  · exact ⟨u.res, u.resHeld, _, true, u.draws + 1, rfl, by simp [h1], by simp, by simp, by simp [h2]⟩

theorem delivered_velocity {i : Instr} (h1 : i.writesRes = true) (h2 : i.writesQres = false) (u : State) :
    Delivered i u (deliverVelocity u) := by
  unfold deliverVelocity velocityWord
  simp only
  split
  · exact ⟨_, true, u.qres, u.qresHeld, u.draws, rfl, by simp, by simp [h2], by simp [h1], by simp⟩
  · exact ⟨_, true, u.qres, u.qresHeld, u.draws + 1, rfl, by simp, by simp [h2], by simp [h1], by simp⟩

variable {P : Addr → Prop} {E : ErrKind → Prop}

/-- R192 to R200: a write to a role register. -/
theorem writeRole_ended (role : RegisterRoles → Addr) (v : Word) (hI : E .invalidParameter) (hT : E .transferFailed)
    (s : State) (hP : P (role s.cfg.regs)) : Ended P E 1 s (writeRole role v s) := by
  refine writeReg_ended _ _ hI hT s ?_
  intro d hd
  rw [findRegister_fixedAddr] at hd
  rw [register?_address hd]
  exact hP

/-- Something that sends and writes nothing may come first. -/
theorem Ran.ended_of {α : Type} {s t : State} {n : Nat} {r : Reply α} (h : Ran s t [] []) (hr : Ended P E n t r) :
    Ended P E n s r := by
  have := Ended.andThen (P := P) (E := E) (n := 0) (m := n) (s := s) (r := .done () t) (f := fun _ _ => r)
    ⟨[], [], h, by simp, by simp, AllOk.zero _, by simp⟩
  obtain ⟨sent, wrote, h1, h2, h3, h4, h5⟩ := hr
  refine ⟨sent, wrote, by simpa using h.trans h1, h2, h3, ?_, h5⟩
  have ha := h.answers
  simp only [List.length_nil, List.drop_zero] at ha
  rw [ha] at h4
  exact h4

/-- R193, R195. -/
theorem writeSpeed_ended (role : RegisterRoles → Addr) (rpm : Rat) (hI : E .invalidParameter) (hT : E .transferFailed)
    (s : State) (hP : P (role s.cfg.regs)) : Ended P E 1 s (writeSpeed role rpm s) := by
  have h := velocityWord_ran rpm s
  refine Ran.ended_of h (writeRole_ended role _ hI hT _ ?_)
  rw [h.cfg]
  exact hP

/-- R191: one sub-operation after another. -/
theorem next_ended {s : State} {r : Reply Unit} {f : State → Reply Unit} {n m : Nat} (h : Ended P E n s r)
    (hf : ∀ t, t.cfg = s.cfg → Ended P E m t (f t)) : Ended P E (n + m) s (r.next f) :=
  h.andThen fun _ t ht => hf t ht

/-- The owning register of a field is its target. -/
theorem reg_mem_fieldTarget {s : State} {c : Config} {f : Word} (hs : s.cfg = c) (F : FieldDescriptor)
    (hF : findField s.cfg.toConfigData f = some F) : F.reg ∈ fieldTarget c.toConfigData f := by
  rw [← hs]
  simp [fieldTarget, hF]

/-- Every command, in `IDLE`: it answers a next state, the end of a body of the shape above. -/
theorem exec_command (i : Instr) (s : State) (hi : i.isCommand = true) (hs : s.seq = .idle) :
    ∃ r, exec i s = .next (finish r) ∧ CommandEnded i s r := by
  cases i with
  | dgramWrite a v => simp [Instr.isCommand] at hi
  | dgramReadreq a => simp [Instr.isCommand] at hi
  | dgramDummy => simp [Instr.isCommand] at hi
  | lookup =>
    simp only [exec, execLookup]
    refine ⟨_, command_idle _ hs,
      CommandEnded.delivered (f := fun d s => setRes (descriptorCode d) s) ((lookup_ended _ ?_ s).mono (fun _ h => h) (fun _
        h => h) (by omega)) (fun x u => delivered_setRes rfl rfl _ u)⟩
    decide
  | fieldExtract =>
    simp only [exec, execFieldExtract]
    refine ⟨_, command_idle _ hs,
      CommandEnded.delivered (f := fun F s => setRes (fieldExtract F s.v) s) ((field_ended _ ?_ s).mono (fun _ h => h) (fun
        _ h => h) (by omega)) (fun x u => delivered_setRes rfl rfl _ u)⟩
    decide
  | fieldCompose =>
    simp only [exec, execFieldCompose]
    refine ⟨_, command_idle _ hs,
      CommandEnded.delivered (f := fun F s => setRes (fieldCompose F s.w s.v) s) ((field_ended _ ?_ s).mono (fun _ h => h)
        (fun _ h => h) (by omega)) (fun x u => delivered_setRes rfl rfl _ u)⟩
    decide
  | write =>
    simp only [exec, execWrite]
    refine ⟨_, command_idle _ hs,
      CommandEnded.plain rfl rfl ((writeReg_ended _ _ ?_ ?_ s ?_).mono (fun _ h => h) (fun _ h => h) (by omega))⟩
    · decide
    · decide
    · intro d hd; simp [writeTargets, hd]
  | writeField =>
    simp only [exec, execWriteField]
    refine ⟨_, command_idle _ hs,
      CommandEnded.plain rfl rfl ((writeField_ended _ _ ?_ ?_ s ?_).mono (fun _ h => h) (fun _ h => h) (by omega))⟩
    · decide
    · decide
    · intro F hF; exact reg_mem_fieldTarget rfl F hF
  | read =>
    simp only [exec, execRead]
    refine ⟨_, command_idle _ hs,
      CommandEnded.delivered (f := fun x s => setRes x s) ((readReg_ended _ ?_ ?_ s).mono (fun _ h => h) (fun _ h => h) (by
        omega)) (fun x u => delivered_setRes rfl rfl _ u)⟩ <;> decide
  | readField =>
    simp only [exec, execReadField]
    refine ⟨_, command_idle _ hs,
      CommandEnded.delivered (f := fun x s => setRes x s) ((readField_ended _ ?_ ?_ s).mono (fun _ h => h) (fun _ h => h)
        (by omega)) (fun x u => delivered_setRes rfl rfl _ u)⟩ <;> decide
  | getShadow =>
    simp only [exec, execGetShadow]
    refine ⟨_, command_idle _ hs,
      CommandEnded.delivered (c := shadow s.a s) (f := fun x s => setRes x s) ?_ (fun x u => delivered_setRes rfl rfl _ u)⟩
    unfold shadow
    split
    · exact Ended.done _ s
    · exact Ended.err (by simp) (by decide) s
  | rpmToVmax =>
    simp only [exec, execRpmToVmax]
    exact ⟨_, command_idle _ hs,
      CommandEnded.delivered (c := .done () s) (f := fun _ s => deliverVelocity s) (Ended.done _ s) (fun x u =>
        delivered_velocity rfl rfl u)⟩
  | vmaxToRpm =>
    simp only [exec, execVmaxToRpm]
    exact ⟨_, command_idle _ hs,
      CommandEnded.delivered (c := .done () s) (f := fun _ s => deliverSpeed s.v.toNat s) (Ended.done _ s) (fun x u =>
        delivered_speed rfl rfl _ u)⟩
  | currentToCs =>
    simp only [exec, execCurrentToCs]
    exact ⟨_, command_idle _ hs,
      CommandEnded.delivered (c := .done () s) (f := fun _ s => setRes (BitVec.ofInt 32 (csOf s.cfg.toConfigData (quantity
        s.q0))) s) (Ended.done _ s) (fun x u => delivered_setRes rfl rfl _ u)⟩
  | accelToRegister =>
    simp only [exec, execAccelToRegister]
    exact ⟨_, command_idle _ hs,
      CommandEnded.delivered (c := .done () s) (f := fun _ s => setRes (BitVec.ofInt 32 (aregOf s.cfg.toConfigData (quantity
        s.q0))) s) (Ended.done _ s) (fun x u => delivered_setRes rfl rfl _ u)⟩
  | durationToTzerowait =>
    simp only [exec, execDurationToTzerowait]
    exact ⟨_, command_idle _ hs,
      CommandEnded.delivered (c := .done () s) (f := fun _ s => setRes (BitVec.ofInt 32 (tzwOf s.cfg.toConfigData (quantity
        s.q0))) s) (Ended.done _ s) (fun x u => delivered_setRes rfl rfl _ u)⟩
  | stop =>
    simp only [exec, execStop]
    refine ⟨_, command_idle _ hs,
      CommandEnded.plain rfl rfl ((writeRole_ended _ _ ?_ ?_ s ?_).mono (fun _ h => h) (fun _ h => h) (by omega))⟩
    · decide
    · decide
    · simp [writeTargets]
  | rotate =>
    simp only [exec, execRotate]
    refine ⟨_, command_idle _ hs,
      CommandEnded.plain rfl rfl ((next_ended (writeRole_ended _ _ ?_ ?_ s ?_) fun t ht => writeSpeed_ended _ _ ?_ ?_ t
        ?_).mono (fun _ h => h) (fun _ h => h) (by omega))⟩
    all_goals first | decide | simp_all [writeTargets]
  | moveTo =>
    simp only [exec, execMoveTo]
    refine ⟨_, command_idle _ hs,
      CommandEnded.plain rfl rfl ((next_ended (writeRole_ended _ _ ?_ ?_ s ?_) fun t ht => next_ended (writeSpeed_ended _ _
        ?_ ?_ t ?_) fun u hu => writeRole_ended _ _ ?_ ?_ u ?_).mono (fun _ h => h) (fun _ h => h) (by omega))⟩
    all_goals first | decide | simp_all [writeTargets]
  | setGlobalScaling =>
    simp only [exec, execSetGlobalScaling]
    refine ⟨_, command_idle _ hs,
      CommandEnded.plain rfl rfl ((writeRole_ended _ _ ?_ ?_ s ?_).mono (fun _ h => h) (fun _ h => h) (by omega))⟩
    all_goals first | decide | simp_all [writeTargets]
  | setLinearAcceleration =>
    simp only [exec, execSetLinearAcceleration]
    refine ⟨_, command_idle _ hs,
      CommandEnded.plain rfl rfl ((next_ended (writeRole_ended _ _ ?_ ?_ s ?_) fun t ht => next_ended (writeRole_ended _ _
        ?_ ?_ t ?_) fun u hu => next_ended (writeRole_ended _ _ ?_ ?_ u ?_) fun w hw => writeRole_ended _ _ ?_ ?_ w ?_).mono
        (fun _ h => h) (fun _ h => h) (by omega))⟩
    all_goals first | decide | simp_all [writeTargets]
  | setAdvancedAcceleration =>
    simp only [exec, execSetAdvancedAcceleration]
    refine ⟨_, command_idle _ hs,
      CommandEnded.plain rfl rfl ((next_ended (writeRole_ended _ _ ?_ ?_ s ?_) fun t ht => next_ended (writeRole_ended _ _
        ?_ ?_ t ?_) fun u hu => next_ended (writeRole_ended _ _ ?_ ?_ u ?_) fun w hw => writeRole_ended _ _ ?_ ?_ w ?_).mono
        (fun _ h => h) (fun _ h => h) (by omega))⟩
    all_goals first | decide | simp_all [writeTargets]
  | setIrun =>
    simp only [exec, execSetIrun]
    refine ⟨_, command_idle _ hs,
      CommandEnded.plain rfl rfl ((writeField_ended _ _ ?_ ?_ s ?_).mono (fun _ h => h) (fun _ h => h) (by omega))⟩
    · decide
    · decide
    · intro F hF; exact reg_mem_fieldTarget rfl F hF
  | setIhold =>
    simp only [exec, execSetIhold]
    refine ⟨_, command_idle _ hs,
      CommandEnded.plain rfl rfl ((next_ended (writeField_ended _ _ ?_ ?_ s ?_) fun t ht => writeField_ended _ _ ?_ ?_ t
        ?_).mono (fun _ h => h) (fun _ h => h) (by omega))⟩
    · decide
    · decide
    · intro F hF; simp [writeTargets, reg_mem_fieldTarget rfl F hF]
    · decide
    · decide
    · intro F hF
      have := reg_mem_fieldTarget ht F hF
      rw [ht] at this
      simp [writeTargets, this]
  | getActualMotorPosition =>
    simp only [exec, execGetActualMotorPosition]
    obtain ⟨d, hd, -⟩ := xactual_known s.cfg
    refine ⟨_, command_idle _ hs,
      CommandEnded.delivered (f := fun x s => setRes x s) ((readReg_known_ended (by simpa using hd) ?_).mono (fun _ h => h)
        (fun _ h => h) (by omega)) (fun x u => delivered_setRes rfl rfl _ u)⟩
    decide
  | getActualVelocity =>
    simp only [exec, execGetActualVelocity]
    obtain ⟨d, hd, -⟩ := vactual_known s.cfg
    refine ⟨_, command_idle _ hs,
      CommandEnded.delivered (f := fun x s => deliverSpeed (velocityMagnitude x) s) ((readReg_known_ended (by simpa using
        hd) ?_).mono (fun _ h => h) (fun _ h => h) (by omega)) (fun x u => delivered_speed rfl rfl _ u)⟩
    decide
  | setStealthChop =>
    simp only [exec, execSetStealthChop]
    refine ⟨_, command_idle _ hs,
      CommandEnded.plain rfl rfl ((writeField_ended _ _ ?_ ?_ s ?_).mono (fun _ h => h) (fun _ h => h) (by omega))⟩
    · decide
    · decide
    · intro F hF; exact reg_mem_fieldTarget rfl F hF

end Sys2Proof.Machine
end

