-- ==== Sys2Proof/Laws/Quantity.lean ====
section
/-! SUPPORT. The named roundings (spec/00_scope.md R11) as the library's, their monotonicity, and how a converter's integer
becomes a port word (spec/42_converter.md R161 to R164). -/

namespace Sys2Proof.Machine

open Sys2Proof Sys2Proof.Safety

/-! ## Roundings -/

theorem trunc_of_nonneg {x : Rat} (h : 0 ≤ x) : trunc x = ⌊x⌋ := by
  have hn : 0 ≤ x.num := Rat.num_nonneg.mpr h
  rw [trunc, Int.tdiv_eq_ediv_of_nonneg hn, Rat.floor_def']

theorem trunc_neg (x : Rat) : trunc (-x) = -trunc x := by
  simp [trunc, Int.neg_tdiv]

theorem trunc_of_nonpos {x : Rat} (h : x ≤ 0) : trunc x = ⌈x⌉ := by
  have := trunc_of_nonneg (x := -x) (by linarith)
  rw [trunc_neg, Int.floor_neg] at this
  omega

@[simp] theorem trunc_intCast (n : Int) : trunc (n : Rat) = n := by
  simp [trunc]

theorem trunc_mono {x y : Rat} (h : x ≤ y) : trunc x ≤ trunc y := by
  rcases le_total 0 x with hx | hx
  · rw [trunc_of_nonneg hx, trunc_of_nonneg (hx.trans h)]
    exact Int.floor_mono h
  · rcases le_total 0 y with hy | hy
    · rw [trunc_of_nonpos hx, trunc_of_nonneg hy]
      have : ⌈x⌉ ≤ 0 := Int.ceil_le.mpr (by simpa using hx)
      have : 0 ≤ ⌊y⌋ := Int.floor_nonneg.mpr hy
      omega
    · rw [trunc_of_nonpos hx, trunc_of_nonpos hy]
      exact Int.ceil_mono h

theorem clampInt_eq {x lo hi : Int} (h : lo ≤ hi) : clampInt x lo hi = max lo (min hi x) := by
  unfold clampInt
  split
  · omega
  · split <;> omega

theorem clampRat_eq {x lo hi : Rat} (h : lo ≤ hi) : clampRat x lo hi = max lo (min hi x) := by
  unfold clampRat
  split
  · rw [min_eq_right (by linarith), max_eq_left (by linarith)]
  · split
    · rw [min_eq_left (by linarith), max_eq_right h]
    · rw [min_eq_right (by linarith), max_eq_right (by linarith)]

/-- What the search for a root finds: the largest `m <= b` with `m^2 <= y`. -/
theorem rootUpTo_spec {y : Rat} (hy : 0 ≤ y) (b : Nat) :
    rootUpTo y b ≤ b ∧ (rootUpTo y b : Rat) ^ 2 ≤ y ∧ ∀ m ≤ b, (m : Rat) ^ 2 ≤ y → m ≤ rootUpTo y b := by
  induction b with
  | zero => simp [rootUpTo, hy]
  | succ n ih =>
    unfold rootUpTo
    split
    · exact ⟨le_rfl, ‹_›, fun m hm _ => hm⟩
    · rename_i h
      refine ⟨by omega, ih.2.1, fun m hm hh => ?_⟩
      by_cases hmn : m = n + 1
      · subst hmn
        exact absurd hh h
      · exact ih.2.2 m (by omega) hh

/-! ## Port words -/

theorem toNat_ofInt32 {n : Int} (h0 : 0 ≤ n) (h1 : n < 2 ^ 32) : ((BitVec.ofInt 32 n).toNat : Int) = n := by
  rw [BitVec.toNat_ofInt]
  simp
  omega

theorem toNat_ofInt64 {n : Int} (h0 : 0 ≤ n) (h1 : n < 2 ^ 64) : ((BitVec.ofInt 64 n).toNat : Int) = n := by
  rw [BitVec.toNat_ofInt]
  simp
  omega

/-- The word of an integer that is some word's value is that word. -/
theorem ofInt_of_toNat {n : Int} {x : Word} (h : (x.toNat : Int) = n) : BitVec.ofInt 32 n = x := by
  rw [← h]
  simp

variable (s : State)

/-- R162: a speed whose register value fits. -/
theorem velocityWord_fits {r : Rat} (h0 : 0 ≤ vmaxOf s.cfg.toConfigData r) (h1 : vmaxOf s.cfg.toConfigData r < 2 ^ 32) :
    velocityWord r s = (BitVec.ofInt 32 (vmaxOf s.cfg.toConfigData r), s) :=
  if_pos ⟨h0, by omega⟩

/-- R163: a speed whose register value does not fit. -/
theorem velocityWord_free {r : Rat}
    (h : vmaxOf s.cfg.toConfigData r < 0 ∨ 2 ^ 32 ≤ vmaxOf s.cfg.toConfigData r) :
    velocityWord r s = (Config.freeWord s.draws, { s with draws := s.draws + 1 }) :=
  if_neg (by omega)

/-- R164: a speed that fits the result register. -/
theorem speedQuad_fits {n : Nat} (h : rpmImage s.cfg.toConfigData n < 2 ^ 63) :
    speedQuad n s = (BitVec.ofInt 64 (rpmImage s.cfg.toConfigData n), s) :=
  if_pos (by omega)

/-- R164: a speed that does not. -/
theorem speedQuad_free {n : Nat} (h : 2 ^ 63 ≤ rpmImage s.cfg.toConfigData n) :
    speedQuad n s = (Config.freeQuad s.draws, { s with draws := s.draws + 1 }) :=
  if_neg (by omega)

/-- R164: the two spellings of the speed's image agree. -/
theorem rpmImage_eq (c : Config) (n : Nat) :
    rpmImage c.toConfigData n = ((n : Rat) * c.clockHz * 60 / c.fullSteps).floor := by
  have hf : (0 : Rat) < c.fullSteps := by exact_mod_cast fullSteps_pos c
  unfold rpmImage rpmOf
  congr 1
  field_simp
  ring

/-- R193: the sign of a quantity is its image's sign. -/
theorem rotateMode_quantity (q : Quad) : rotateMode (quantity q) = if q.toInt ≥ 0 then 1 else 2 := by
  unfold rotateMode quantity rampVelocityPositive rampVelocityNegative
  have : (0 : Rat) ≤ (q.toInt : Rat) / 2 ^ 32 ↔ q.toInt ≥ 0 := by
    rw [le_div_iff₀ (by positivity)]
    simp
  by_cases h : q.toInt ≥ 0
  · rw [if_pos (this.mpr h), if_pos h]
  · rw [if_neg (fun hh => h (this.mp hh)), if_neg h]

theorem flagOf_eq (v : Word) : flagOf v = if v.getLsbD 0 then 1 else 0 := by
  unfold flagOf
  rw [show (1 : Word) = BitVec.twoPow 32 0 by decide, BitVec.and_twoPow]
  rfl

end Sys2Proof.Machine
end

