-- ==== Sys2Proof/Laws/Motion.lean ====
section
/-! SUPPORT. The motion sequencer's writes under given answers of the transport (spec/43_motion_sequencer.md R190 to R204),
and how a body's end ends the command. -/

namespace Sys2Proof.Machine

open Sys2Proof Sys2Proof.Safety

variable {s : State}

@[simp] theorem next_done (x : Unit) (s : State) (f : State → Reply Unit) : (Reply.done x s).next f = f s := rfl

@[simp] theorem next_err (k : ErrKind) (s : State) (f : State → Reply Unit) : (Reply.err k s).next f = .err k s := rfl

/-- R27 (c), in `IDLE`. -/
theorem finish_done (x : Unit) (h : s.seq = .idle) : finish (.done x s) = { s with err := 0 } :=
  succeed_of_idle h

@[simp] theorem finish_err (k : ErrKind) (s : State) : finish (.err k s) = raise k s := rfl

@[simp] theorem cacheAt_afterWrite_self (r : Addr) (x : Word) (ans : Answer) (rest : List Answer) (s : State) :
    cacheAt (afterWrite r x ans rest s) r = x :=
  cacheAt_setCache_self s r x

theorem cacheAt_afterWrite_ne {a r : Addr} (x : Word) (ans : Answer) (rest : List Answer) (s : State) (h : a ≠ r) :
    cacheAt (afterWrite r x ans rest s) a = cacheAt s a :=
  cacheAt_setCache_ne s x h

/-- A counter of draws moves out of a write. -/
@[simp] theorem afterWrite_withDraws (r : Addr) (x : Word) (ans : Answer) (rest : List Answer) (s : State) (n : Nat) :
    afterWrite r x ans rest { s with draws := n } = { afterWrite r x ans rest s with draws := n } := rfl

/-- R135 to a role register. -/
theorem writeRole_cons {role : RegisterRoles → Addr} {v : Word} {ans : Answer} {rest : List Answer}
    (hw : writableAt s.cfg.toConfigData (role s.cfg.regs) = true) (ha : s.answers = ans :: rest) :
    writeRole role v s = if ans.ok then .done () (afterWrite (role s.cfg.regs) v ans rest s)
      else .err .transferFailed (afterWrite (role s.cfg.regs) v ans rest s) :=
  writeReg_fixed hw ha

/-- R193, R195: a speed in range. -/
theorem writeSpeed_cons {role : RegisterRoles → Addr} {r : Rat} {ans : Answer} {rest : List Answer} (x : Word)
    (hx : (x.toNat : Int) = vmaxOf s.cfg.toConfigData r)
    (hw : writableAt s.cfg.toConfigData (role s.cfg.regs) = true) (ha : s.answers = ans :: rest) :
    writeSpeed role r s = if ans.ok then .done () (afterWrite (role s.cfg.regs) x ans rest s)
      else .err .transferFailed (afterWrite (role s.cfg.regs) x ans rest s) := by
  have hl := x.isLt
  simp only [writeSpeed, velocityWord_fits s (by omega : 0 ≤ vmaxOf s.cfg.toConfigData r) (by omega), ofInt_of_toNat hx]
  exact writeRole_cons hw ha

/-- R163: a speed out of range. -/
theorem writeSpeed_free {role : RegisterRoles → Addr} {r : Rat} {ans : Answer} {rest : List Answer}
    (hx : vmaxOf s.cfg.toConfigData r < 0 ∨ 2 ^ 32 ≤ vmaxOf s.cfg.toConfigData r)
    (hw : writableAt s.cfg.toConfigData (role s.cfg.regs) = true) (ha : s.answers = ans :: rest) :
    writeSpeed role r s =
      if ans.ok then
        .done () { afterWrite (role s.cfg.regs) (Config.freeWord s.draws) ans rest s with draws := s.draws + 1 }
      else .err .transferFailed
        { afterWrite (role s.cfg.regs) (Config.freeWord s.draws) ans rest s with draws := s.draws + 1 } := by
  simp only [writeSpeed, velocityWord_free s hx]
  exact writeRole_cons (s := { s with draws := s.draws + 1 }) hw ha

/-- R199, R200: an acceleration. -/
theorem writeAccel_cons {role : RegisterRoles → Addr} {q : Quad} {ans : Answer} {rest : List Answer} (x : Word)
    (hx : (x.toNat : Int) = aregOf s.cfg.toConfigData (quantity q))
    (hw : writableAt s.cfg.toConfigData (role s.cfg.regs) = true) (ha : s.answers = ans :: rest) :
    writeAccel role q s = if ans.ok then .done () (afterWrite (role s.cfg.regs) x ans rest s)
      else .err .transferFailed (afterWrite (role s.cfg.regs) x ans rest s) := by
  simp only [writeAccel, ofInt_of_toNat hx]
  exact writeRole_cons hw ha

/-- R203, R204: a current. -/
theorem writeCurrent_cons {role : FieldRoles → Word} {F : FieldDescriptor} {ans : Answer} {rest : List Answer} (x : Word)
    (hx : (x.toNat : Int) = csOf s.cfg.toConfigData (quantity s.q0))
    (hF : findField s.cfg.toConfigData (role s.cfg.roleFields) = some F)
    (hw : writableAt s.cfg.toConfigData F.reg = true) (ha : s.answers = ans :: rest) :
    writeCurrent role s =
      if ans.ok then .done () (afterWrite F.reg (fieldCompose F (cacheAt s F.reg) x) ans rest s)
      else .err .transferFailed (afterWrite F.reg (fieldCompose F (cacheAt s F.reg) x) ans rest s) := by
  simp only [writeCurrent, ofInt_of_toNat hx]
  exact writeField_cons hF hw ha

/-! ## Planned writes: whatever the transport answers, whatever the registry allows -/

/-- R135 with R163: what a planned write ends with, in every state. -/
def attempt (w : PlannedWrite) (s : State) : Reply Unit :=
  if writableAt s.cfg.toConfigData w.reg then
    if (afterAnswered w.reg w.word (w.draw s)).txn.ok then .done () (afterAnswered w.reg w.word (w.draw s))
    else .err .transferFailed (afterAnswered w.reg w.word (w.draw s))
  else .err .invalidParameter (w.draw s)

/-- R133 on the written cache entry, whatever the transport answers. -/
theorem memWrite_answered (r : Addr) (x : Word) (s : State) :
    memWrite r x (setCache r x s) =
      if (afterAnswered r x s).txn.ok then .done () (afterAnswered r x s)
      else .err .transferFailed (afterAnswered r x s) := by
  have h : bracket (Frame.write r x) (setCache r x s) = afterAnswered r x s := by
    unfold afterAnswered
    split <;> simp [bracket, transfer, takeAnswer, emit, afterWrite, bracketEvents, setCache, *]
  simp only [memWrite, h]

/-- R135 to a known register. -/
theorem writeReg_attempt {r : Addr} {d : RegisterDescriptor} (x : Word) (h : s.cfg.register? r = some d) :
    writeReg (fixedAddr r) x s = attempt ⟨r, x, 0⟩ s := by
  have hf : findRegister s.cfg.toConfigData (fixedAddr r) = some d := by simpa using h
  have hr : d.address = r := register?_address h
  simp only [writeReg, acceptWrite_found hf, attempt, writableAt_of_found h, draw_zero, hr]
  cases d.writable
  · rfl
  · exact memWrite_answered r x s

/-- R135 to a role register. -/
theorem writeRole_attempt {role : RegisterRoles → Addr} (x : Word) (h : role s.cfg.regs ∈ s.cfg.roleAddresses) :
    writeRole role x s = attempt ⟨role s.cfg.regs, x, 0⟩ s := by
  obtain ⟨d, hd⟩ := role_known s.cfg h
  exact writeReg_attempt x hd

/-- R193, R195: a speed in range. -/
theorem writeSpeed_attempt {role : RegisterRoles → Addr} {r : Rat} (x : Word)
    (hx : (x.toNat : Int) = vmaxOf s.cfg.toConfigData r) (h : role s.cfg.regs ∈ s.cfg.roleAddresses) :
    writeSpeed role r s = attempt ⟨role s.cfg.regs, x, 0⟩ s := by
  have hl := x.isLt
  simp only [writeSpeed, velocityWord_fits s (by omega : 0 ≤ vmaxOf s.cfg.toConfigData r) (by omega), ofInt_of_toNat hx]
  exact writeRole_attempt x h

/-- R163: a speed out of range. -/
theorem writeSpeed_attempt_free {role : RegisterRoles → Addr} {r : Rat}
    (hx : vmaxOf s.cfg.toConfigData r < 0 ∨ 2 ^ 32 ≤ vmaxOf s.cfg.toConfigData r)
    (h : role s.cfg.regs ∈ s.cfg.roleAddresses) :
    writeSpeed role r s = attempt ⟨role s.cfg.regs, Config.freeWord s.draws, 1⟩ s := by
  simp only [writeSpeed, velocityWord_free s hx]
  exact writeRole_attempt (s := { s with draws := s.draws + 1 }) _ h

/-- R199, R200: an acceleration. -/
theorem writeAccel_attempt {role : RegisterRoles → Addr} {q : Quad} (x : Word)
    (hx : (x.toNat : Int) = aregOf s.cfg.toConfigData (quantity q)) (h : role s.cfg.regs ∈ s.cfg.roleAddresses) :
    writeAccel role q s = attempt ⟨role s.cfg.regs, x, 0⟩ s := by
  simp only [writeAccel, ofInt_of_toNat hx]
  exact writeRole_attempt x h

/-- R137 to a known field. -/
theorem writeField_attempt {f : Word} {F : FieldDescriptor} (v : Word)
    (hF : findField s.cfg.toConfigData f = some F) :
    writeField f v s = attempt ⟨F.reg, fieldCompose F (cacheAt s F.reg) v, 0⟩ s := by
  obtain ⟨d, hd⟩ := (findField_some s.cfg hF).2
  have hf : findRegister s.cfg.toConfigData (fixedAddr F.reg) = some d := by simpa using hd
  simp only [writeField, acceptFieldWrite, field_some hF, andThen_done, lookup_some hf, attempt,
    writableAt_of_found hd, draw_zero]
  cases d.writable
  · rfl
  · exact memWrite_answered _ _ s

/-- R191: a planned write, then the rest. -/
theorem finish_attempt_next (w : PlannedWrite) (more : List PlannedWrite) (f : State → Reply Unit)
    (hf : finish (f (afterAnswered w.reg w.word (w.draw s))) =
      writeSequence more (afterAnswered w.reg w.word (w.draw s))) :
    finish ((attempt w s).next f) = writeSequence (w :: more) s := by
  unfold attempt writeSequence
  split
  · simp only
    split
    · exact hf
    · rfl
  · rfl

/-- R191: the last planned write. -/
theorem finish_attempt (w : PlannedWrite) (h : s.seq = .idle) : finish (attempt w s) = writeSequence [w] s := by
  have := finish_attempt_next (s := s) w [] (fun s => .done () s) (finish_done _ (by simpa using h))
  rw [← this]
  unfold attempt
  split
  · split <;> rfl
  · rfl

/-- The cache entry a planned write leaves. -/
@[simp] theorem cacheAt_afterAnswered_self (r : Addr) (x : Word) (s : State) : cacheAt (afterAnswered r x s) r = x := by
  unfold afterAnswered
  split
  · simp
  · exact cacheAt_afterWrite_self r x _ _ _

end Sys2Proof.Machine
end

