-- ==== Sys2Proof/Laws/Operands.lean ====
section
/-! SUPPORT. A host's write of an operand register commutes with every shared operation that does not read that register
(spec/30_encoding.md R90, spec/10_state.md R25). -/

namespace Sys2Proof.Machine

open Sys2Proof Sys2Proof.Safety

/-- A sub-operation's end with a change made to its state. -/
def Reply.mapState {α : Type} (f : State → State) : Reply α → Reply α
  | .done x s => .done x (f s)
  | .err k s => .err k (f s)

variable (r : PortReg) (x : Quad)

theorem setOperand_cfg (s : State) : (setOperand r x s).cfg = s.cfg := by cases r <;> rfl

theorem setOperand_seq (s : State) : (setOperand r x s).seq = s.seq := by cases r <;> rfl

theorem setOperand_txn (s : State) : (setOperand r x s).txn = s.txn := by cases r <;> rfl

theorem setOperand_draws (s : State) : (setOperand r x s).draws = s.draws := by cases r <;> rfl

theorem setOperand_cacheAt (s : State) (a) : cacheAt (setOperand r x s) a = cacheAt s a := by cases r <;> rfl

theorem emit_setOperand (e) (s : State) : emit e (setOperand r x s) = setOperand r x (emit e s) := by cases r <;> rfl

theorem transfer_setOperand (tx) (s : State) : transfer tx (setOperand r x s) = setOperand r x (transfer tx s) := by
  obtain ⟨⟩ := s; rename_i ans _ _ _
  cases ans <;> cases r <;> rfl

theorem bracket_setOperand (tx) (s : State) : bracket tx (setOperand r x s) = setOperand r x (bracket tx s) := by
  simp [bracket, emit_setOperand, transfer_setOperand]

theorem memWrite_setOperand (a v) (s : State) :
    memWrite a v (setOperand r x s) = Reply.mapState (setOperand r x) (memWrite a v s) := by
  simp only [memWrite, bracket_setOperand, setOperand_txn]; split <;> rfl

theorem memRead_setOperand (a) (s : State) :
    memRead a (setOperand r x s) = Reply.mapState (setOperand r x) (memRead a s) := by
  simp only [memRead, bracket_setOperand, setOperand_txn]; split
  · split <;> rfl
  · rfl

theorem setCache_setOperand (a v) (s : State) :
    setCache a v (setOperand r x s) = setOperand r x (setCache a v s) := by cases r <;> rfl

theorem lookup_setOperand (a) (s : State) :
    lookup a (setOperand r x s) = Reply.mapState (setOperand r x) (lookup a s) := by
  simp only [lookup, setOperand_cfg]; split <;> rfl

theorem field_setOperand (a) (s : State) :
    field a (setOperand r x s) = Reply.mapState (setOperand r x) (field a s) := by
  simp only [field, setOperand_cfg]; split <;> rfl

theorem andThen_setOperand {α β : Type} (m : Reply α) (f : α → State → Reply β)
    (hf : ∀ y s, f y (setOperand r x s) = Reply.mapState (setOperand r x) (f y s)) :
    (Reply.mapState (setOperand r x) m).andThen f = Reply.mapState (setOperand r x) (m.andThen f) := by
  cases m <;> simp [Reply.mapState, Reply.andThen, hf]

theorem acceptWrite_setOperand (a v) (s : State) :
    acceptWrite a v (setOperand r x s) = Reply.mapState (setOperand r x) (acceptWrite a v s) := by
  simp only [acceptWrite, lookup_setOperand]
  exact andThen_setOperand _ _ _ _ fun d s => by
    split
    · simp [setCache_setOperand, Reply.mapState]
    · rfl

theorem writeReg_setOperand (a v) (s : State) :
    writeReg a v (setOperand r x s) = Reply.mapState (setOperand r x) (writeReg a v s) := by
  simp only [writeReg, acceptWrite_setOperand]
  exact andThen_setOperand _ _ _ _ fun d s => memWrite_setOperand r x _ _ s

theorem acceptFieldWrite_setOperand (a v) (s : State) :
    acceptFieldWrite a v (setOperand r x s) = Reply.mapState (setOperand r x) (acceptFieldWrite a v s) := by
  simp only [acceptFieldWrite, field_setOperand]
  exact andThen_setOperand _ _ _ _ fun F s => by
    simp only [lookup_setOperand]
    exact andThen_setOperand _ _ _ _ fun d s => by
      split
      · simp [setCache_setOperand, Reply.mapState, setOperand_cacheAt]
      · rfl

theorem writeField_setOperand (a v) (s : State) :
    writeField a v (setOperand r x s) = Reply.mapState (setOperand r x) (writeField a v s) := by
  simp only [writeField, acceptFieldWrite_setOperand]
  exact andThen_setOperand _ _ _ _ fun d s => memWrite_setOperand r x _ _ s

theorem readReg_setOperand (a) (s : State) :
    readReg a (setOperand r x s) = Reply.mapState (setOperand r x) (readReg a s) := by
  simp only [readReg, lookup_setOperand]
  exact andThen_setOperand _ _ _ _ fun d s => by
    split
    · exact memRead_setOperand r x _ s
    · simp [Reply.mapState, setOperand_cacheAt]

theorem readField_setOperand (a) (s : State) :
    readField a (setOperand r x s) = Reply.mapState (setOperand r x) (readField a s) := by
  simp only [readField, field_setOperand]
  exact andThen_setOperand _ _ _ _ fun F s => by
    simp only [readReg_setOperand]
    exact andThen_setOperand _ _ _ _ fun w s => rfl

theorem setRes_setOperand (v) (s : State) :
    setRes v (setOperand r x s) = setOperand r x (setRes v s) := by cases r <;> rfl

theorem setQres_setOperand (v) (s : State) :
    setQres v (setOperand r x s) = setOperand r x (setQres v s) := by cases r <;> rfl

theorem drawWord_setOperand (s : State) :
    drawWord (setOperand r x s) = ((drawWord s).1, setOperand r x (drawWord s).2) := by cases r <;> rfl

theorem drawQuad_setOperand (s : State) :
    drawQuad (setOperand r x s) = ((drawQuad s).1, setOperand r x (drawQuad s).2) := by cases r <;> rfl

theorem velocityWord_setOperand (q) (s : State) :
    velocityWord q (setOperand r x s) = ((velocityWord q s).1, setOperand r x (velocityWord q s).2) := by
  simp only [velocityWord, setOperand_cfg]; split
  · rfl
  · exact drawWord_setOperand r x s

theorem deliverSpeed_setOperand (n) (s : State) :
    deliverSpeed n (setOperand r x s) = setOperand r x (deliverSpeed n s) := by
  simp only [deliverSpeed, speedQuad, setOperand_cfg]; split
  · exact setQres_setOperand r x _ s
  · simp [drawQuad_setOperand, setQres_setOperand]

theorem finish_setOperand (m : Reply Unit) :
    finish (Reply.mapState (setOperand r x) m) = setOperand r x (finish m) := by
  cases m with
  | done u s => cases r <;> rfl
  | err k s =>
    simp only [Reply.mapState, finish, raise, setOperand_seq]
    split <;> cases r <;> rfl

theorem command_setOperand (b : State → Reply Unit) (s : State)
    (hb : b (setOperand r x s) = Reply.mapState (setOperand r x) (b s)) :
    command b (setOperand r x s) = mapNext (setOperand r x) (command b s) := by
  simp only [command, setOperand_seq]; split
  · simp only [mapNext, hb, finish_setOperand]
  · rfl

theorem sendFrame_setOperand (f) (s : State) :
    sendFrame f (setOperand r x s) = mapNext (setOperand r x) (sendFrame f s) := by
  simp only [sendFrame, setOperand_seq, bracket_setOperand]; split <;> rfl

theorem writeRole_setOperand (role v) (s : State) :
    writeRole role v (setOperand r x s) = Reply.mapState (setOperand r x) (writeRole role v s) := by
  simp only [writeRole, setOperand_cfg, writeReg_setOperand]

theorem writeSpeed_setOperand (role v) (s : State) :
    writeSpeed role v (setOperand r x s) = Reply.mapState (setOperand r x) (writeSpeed role v s) := by
  simp only [writeSpeed, velocityWord_setOperand, writeRole_setOperand]

theorem writeAccel_setOperand (role v) (s : State) :
    writeAccel role v (setOperand r x s) = Reply.mapState (setOperand r x) (writeAccel role v s) := by
  simp only [writeAccel, setOperand_cfg, writeRole_setOperand]

theorem next_setOperand (m : Reply Unit) (f : State → Reply Unit)
    (hf : ∀ s, f (setOperand r x s) = Reply.mapState (setOperand r x) (f s)) :
    (Reply.mapState (setOperand r x) m).next f = Reply.mapState (setOperand r x) (m.next f) :=
  andThen_setOperand _ _ _ _ fun _ s => hf s

theorem shadow_setOperand (a) (s : State) :
    shadow a (setOperand r x s) = Reply.mapState (setOperand r x) (shadow a s) := by
  simp only [shadow]; split
  · simp [Reply.mapState, setOperand_cacheAt]
  · rfl

theorem setOperand_a (s : State) (h : r ≠ .a) : (setOperand r x s).a = s.a := by cases r <;> first | rfl | simp at h

theorem setOperand_v (s : State) (h : r ≠ .v) : (setOperand r x s).v = s.v := by cases r <;> first | rfl | simp at h

theorem setOperand_w (s : State) (h : r ≠ .w) : (setOperand r x s).w = s.w := by cases r <;> first | rfl | simp at h

theorem setOperand_q0 (s : State) (h : r ≠ .q0) : (setOperand r x s).q0 = s.q0 := by cases r <;> first | rfl | simp at h

theorem setOperand_q1 (s : State) (h : r ≠ .q1) : (setOperand r x s).q1 = s.q1 := by cases r <;> first | rfl | simp at h

theorem setOperand_q2 (s : State) (h : r ≠ .q2) : (setOperand r x s).q2 = s.q2 := by cases r <;> first | rfl | simp at h

theorem setOperand_q3 (s : State) (h : r ≠ .q3) : (setOperand r x s).q3 = s.q3 := by cases r <;> first | rfl | simp at h

end Sys2Proof.Machine
end

