-- ==== Sys2Proof/Laws/PerInstr.lean ====
section
/-! SUPPORT. One family of facts for each constructor of `Instr`: how many bytes its word has (spec/30_encoding.md R80,
R88). -/

namespace Sys2Proof.Laws.EncodeLength

open Sys2Proof

/-- R88: a host command is one opcode byte; R80: a wire frame is five bytes. -/
def Statement (i : Instr) : Prop :=
  (encode i).length = if i.isCommand then 1 else 5

theorem lookup : Statement .lookup := rfl
theorem fieldExtract : Statement .fieldExtract := rfl
theorem fieldCompose : Statement .fieldCompose := rfl
theorem write : Statement .write := rfl
theorem writeField : Statement .writeField := rfl
theorem read : Statement .read := rfl
theorem readField : Statement .readField := rfl
theorem getShadow : Statement .getShadow := rfl
theorem rpmToVmax : Statement .rpmToVmax := rfl
theorem vmaxToRpm : Statement .vmaxToRpm := rfl
theorem currentToCs : Statement .currentToCs := rfl
theorem accelToRegister : Statement .accelToRegister := rfl
theorem durationToTzerowait : Statement .durationToTzerowait := rfl
theorem stop : Statement .stop := rfl
theorem rotate : Statement .rotate := rfl
theorem moveTo : Statement .moveTo := rfl
theorem setGlobalScaling : Statement .setGlobalScaling := rfl
theorem setLinearAcceleration : Statement .setLinearAcceleration := rfl
theorem setAdvancedAcceleration : Statement .setAdvancedAcceleration := rfl
theorem setIrun : Statement .setIrun := rfl
theorem setIhold : Statement .setIhold := rfl
theorem getActualMotorPosition : Statement .getActualMotorPosition := rfl
theorem getActualVelocity : Statement .getActualVelocity := rfl
theorem setStealthChop : Statement .setStealthChop := rfl
theorem dgramWrite (a : Addr) (v : Word) : Statement (.dgramWrite a v) := rfl
theorem dgramReadreq (a : Addr) : Statement (.dgramReadreq a) := rfl
theorem dgramDummy : Statement .dgramDummy := rfl

end Sys2Proof.Laws.EncodeLength
end

