-- ==== Sys2Proof/Tests/Slice0.lean ====
section
/-! SUPPORT. Tests: ill-formed terms refused, decodings of words written out from the spec's encodings, one-step tests with the
values of spec/95_test_vectors.md, and for every obligation with hypotheses a concrete state that meets them. -/

namespace Sys2Proof.Tests

open Sys2Proof Sys2Proof.Machine Sys2Proof.Safety

-- One test after another: each waits for the kernel, and all at once they would need a thread each.
set_option Elab.async false

/-! ## Helpers -/

/-- An answer `ok` with no data. -/
def ack : Answer := ⟨true, ⟨0, 0, 0, 0, 0⟩⟩

/-- An answer that reports a failure. -/
def nak : Answer := ⟨false, ⟨0, 0, 0, 0, 0⟩⟩

/-- An answer `ok` with four data bytes behind some byte 0. -/
def data (b1 b2 b3 b4 : Byte) : Answer := ⟨true, ⟨0x5A, b1, b2, b3, b4⟩⟩

/-- The state after reset of instance T, the transport's answers given. -/
def ready (answers : List Answer) : State := { State.reset with answers := answers }

/-- The same, `OP` written and the command issued. -/
def issued (op : Byte) : State := { State.reset with op := op, host := [.issue] }

/-- A cache entry already written. -/
def withCache (a : Addr) (x : Word) (s : State) : State := { s with cache := s.cache.set a.toNat x }

/-- The outcome is a next state of which `p` holds. -/
def holds (o : Host.Outcome State Fault Refusal) (p : State → Bool) : Bool :=
  match o with
  | .next t => p t
  | .fault _ => false
  | .refused _ => false

theorem next_of_holds {o : Host.Outcome State Fault Refusal} {p : State → Bool} (h : holds o p = true) :
    ∃ t, o = .next t ∧ p t = true := by
  cases o with
  | next t => exact ⟨t, rfl, h⟩
  | fault r => exact absurd h (by simp [holds])
  | refused r => exact absurd h (by simp [holds])

/-- The transmit bytes of the transfers of a state's events. -/
def sent (s : State) : List (List Byte) :=
  s.trace.filterMap fun e =>
    match e with
    | .transfer tx _ => some tx.bytes
    | .select => none
    | .deselect => none

/-- A command succeeded and sent these frames, each in its bracket. -/
def did (frames : List (List Byte)) (t : State) : Bool :=
  t.err == 0 && sent t == frames && bracketed t.trace

/-! ## WellFormed -/

theorem test_wellFormed_refuses_readreq_zero : (Instr.dgramReadreq 0).wellFormed = false := by decide

/-- R6, R7, R32: invalid configurations are refused: a parameter of zero, a field past bit 31, a role without an entry, a hold
delay wider than its field. -/
theorem test_build_refuses_invalid :
    ({ Reference.data with clockHz := 0 } : ConfigData).valid = false ∧
    ({ Reference.data with fields := (8, ⟨0x10, 30, 3⟩) :: Reference.data.fields } : ConfigData).valid = false ∧
    ({ Reference.data with regs := { Reference.data.regs with vmax := 0x29 } } : ConfigData).valid = false ∧
    ({ Reference.data with iholddelayDefault := 16 } : ConfigData).valid = false := by
  decide +kernel

/-- spec/93 Part 3: 61 known addresses, 0x29 and 0x37 not among them. -/
theorem test_reference_registry :
    Config.reference.registry.length = 61 ∧ Config.reference.register? 0x29 = none ∧
    Config.reference.register? 0x37 = none ∧ Config.reference.register? 0x22 = some ⟨0x22, .readOnly, true⟩ := by
  decide +kernel

/-! ## Decode: every constructor by a word written out from R89 and R82 to R84 -/

theorem test_decode_field_unit :
    decode [0b00000001] = .ok .lookup ∧ decode [0b00000010] = .ok .fieldExtract ∧
    decode [0b00000011] = .ok .fieldCompose := by decide +kernel

theorem test_decode_communicator :
    decode [0b00001000] = .ok .write ∧ decode [0b00001001] = .ok .writeField ∧ decode [0b00001010] = .ok .read ∧
    decode [0b00001011] = .ok .readField ∧ decode [0b00001100] = .ok .getShadow := by decide +kernel

theorem test_decode_converter :
    decode [0b00010000] = .ok .rpmToVmax ∧ decode [0b00010001] = .ok .vmaxToRpm ∧
    decode [0b00010010] = .ok .currentToCs ∧ decode [0b00010011] = .ok .accelToRegister ∧
    decode [0b00010100] = .ok .durationToTzerowait := by decide +kernel

theorem test_decode_motion :
    decode [0b00100000] = .ok .stop ∧ decode [0b00100001] = .ok .rotate ∧ decode [0b00100010] = .ok .moveTo ∧
    decode [0b00100011] = .ok .setGlobalScaling ∧ decode [0b00100100] = .ok .setLinearAcceleration ∧
    decode [0b00100101] = .ok .setAdvancedAcceleration ∧ decode [0b00100110] = .ok .setIrun ∧
    decode [0b00100111] = .ok .setIhold ∧ decode [0b00101000] = .ok .getActualMotorPosition ∧
    decode [0b00101001] = .ok .getActualVelocity ∧ decode [0b00101010] = .ok .setStealthChop := by decide +kernel

/-- R82: `1aaaaaaa` with a = 0x27, then the value, most significant byte first. -/
theorem test_decode_frame_write :
    decode [0b10100111, 0x00, 0x01, 0xD2, 0x08] = .ok (.dgramWrite 0x27 0x0001D208) := by decide +kernel

/-- R83: `0aaaaaaa` with a = 0x6F, then zeros. -/
theorem test_decode_frame_readreq : decode [0b01101111, 0, 0, 0, 0] = .ok (.dgramReadreq 0x6F) := by decide +kernel

/-- R84. -/
theorem test_decode_frame_dummy : decode [0, 0, 0, 0, 0] = .ok .dgramDummy := by decide +kernel

/-- R87: a read frame with a payload is none of the three. -/
theorem test_decode_rejects_foreign_frame :
    decode [0x21, 0, 0, 0, 1] = .error (.foreignFrame ⟨0x21, 0, 0, 0, 1⟩) := by decide +kernel

/-- R91. -/
theorem test_decode_rejects_reserved : decode [0x2B] = .error (.reservedOpcode 0x2B) := by decide +kernel

/-- R80's numbering: the write flag is bit 39. -/
theorem test_decodeTableWord :
    decodeTableWord 40 0xA70001D208 = some (.dgramWrite 0x27 0x0001D208) ∧ decodeTableWord 8 0x22 = some .moveTo := by
  decide +kernel

/-! ## Field unit (spec/95_test_vectors.md 2.1) -/

theorem test_field_functions :
    fieldMask ⟨0, 8, 5⟩ = 0x00001F00 ∧ fieldExtract ⟨0, 24, 4⟩ 0x04000003 = 4 ∧
    fieldCompose ⟨0, 2, 1⟩ 0xFFFFFFFF 0 = 0xFFFFFFFB ∧ fieldCompose ⟨0, 31, 1⟩ 0x7FFFFFFF 1 = 0xFFFFFFFF ∧
    fieldCompose ⟨0, 0, 32⟩ 0xFFFFFFFF 0x12345678 = 0x12345678 := by decide +kernel

theorem test_lookup :
    holds (exec .lookup { ready [] with a := 0x22 }) (fun t => t.res == 5 && did [] t) = true := by decide +kernel

theorem test_lookup_out_of_range :
    holds (exec .lookup { ready [] with a := 0x80 }) (fun t => t.err == 3 && sent t == []) = true := by decide +kernel

theorem test_fieldExtract :
    holds (exec .fieldExtract { ready [] with a := 2, v := 0x00061F0A }) (fun t => t.res == 0x1F && did [] t) = true := by
  decide +kernel

/-- A value too wide for the field is cut. -/
theorem test_fieldCompose_cut :
    holds (exec .fieldCompose { ready [] with a := 2, v := 0x29, w := 0x00060004 })
      (fun t => t.res == 0x00060904 && did [] t) = true := by decide +kernel

/-! ## Communicator (2.2) -/

theorem test_write :
    holds (exec .write { ready [ack] with a := 0x27, v := 0x0001D208 })
      (fun t => cacheAt t 0x27 == 0x0001D208 && did [[0xA7, 0x00, 0x01, 0xD2, 0x08]] t) = true := by decide +kernel

/-- S9: a failed transfer: one bracket, the cache ahead of the chip. -/
theorem test_write_failed :
    holds (exec .write { ready [nak] with a := 0x27, v := 0x0001D208 })
      (fun t => cacheAt t 0x27 == 0x0001D208 && t.err == 1 && bracketed t.trace && t.trace.length == 3) = true := by
  decide +kernel

theorem test_writeField :
    holds (exec .writeField (withCache 0x10 4 { ready [ack] with a := 2, v := 9 }))
      (fun t => cacheAt t 0x10 == 0x904 && did [[0x90, 0x00, 0x00, 0x09, 0x04]] t) = true := by decide +kernel

theorem test_read_volatile :
    holds (exec .read { ready [ack, data 0xFF 0xFF 0xFF 0x38] with a := 0x21 })
      (fun t => t.res == 0xFFFFFF38 && cacheAt t 0x21 == 0 && did [[0x21, 0, 0, 0, 0], [0, 0, 0, 0, 0]] t) = true := by
  decide +kernel

/-- A WriteOnly register that is not volatile is read from the cache (R140). -/
theorem test_read_writeOnly :
    holds (exec .read (withCache 0x27 7 { ready [] with a := 0x27 })) (fun t => t.res == 7 && did [] t) = true := by
  decide +kernel

theorem test_readField :
    holds (exec .readField (withCache 0x10 0x00060904 { ready [] with a := 2 })) (fun t => t.res == 9 && did [] t) = true := by
  decide +kernel

theorem test_getShadow_127 :
    holds (exec .getShadow (withCache 0x7F 3 { ready [] with a := 127 })) (fun t => t.res == 3 && did [] t) = true := by
  decide +kernel

theorem test_getShadow_128 :
    holds (exec .getShadow { ready [] with a := 128 }) (fun t => t.err == 2 && sent t == []) = true := by decide +kernel

/-! ## Converter (2.3) -/

theorem test_rpmToVmax :
    holds (exec .rpmToVmax { ready [] with q0 := 0x0000006400000000 }) (fun t => t.res == 0x0001D208 && did [] t) = true := by
  decide +kernel

/-- Truncation is toward zero, so -2^-32 rpm is in range. -/
theorem test_rpmToVmax_minus_tiny :
    holds (exec .rpmToVmax { ready [] with q0 := 0xFFFFFFFFFFFFFFFF }) (fun t => t.res == 0 && t.draws == 0) = true := by
  decide +kernel

theorem test_vmaxToRpm :
    holds (exec .vmaxToRpm { ready [] with v := 119304 }) (fun t => t.qres == 0x00000063FFDC7400 && did [] t) = true := by
  decide +kernel

theorem test_currentToCs_below_one :
    holds (exec .currentToCs { ready [] with q0 := 0x000000003106AC88 }) (fun t => t.res == 0 && did [] t) = true := by
  decide +kernel

theorem test_currentToCs_full_scale :
    holds (exec .currentToCs { ready [] with q0 := 0x00000003106AC88C }) (fun t => t.res == 31 && did [] t) = true := by
  decide +kernel

theorem test_accelToRegister :
    holds (exec .accelToRegister { ready [] with q0 := 0x00000082F79CD900 }) (fun t => t.res == 2 && did [] t) = true := by
  decide +kernel

theorem test_accelToRegister_zero :
    holds (exec .accelToRegister { ready [] with q0 := 0 }) (fun t => t.res == 1 && did [] t) = true := by decide +kernel

theorem test_durationToTzerowait :
    holds (exec .durationToTzerowait { ready [] with q0 := 0x0000000200000000 }) (fun t => t.res == 46875 && did [] t) = true := by
  decide +kernel

theorem test_durationToTzerowait_top :
    holds (exec .durationToTzerowait { ready [] with q0 := 0x00000002CBD1244B }) (fun t => t.res == 65535 && did [] t) = true := by
  decide +kernel

/-! ## Motion sequencer (2.4) -/

theorem test_stop :
    holds (exec .stop (withCache 0x27 5 (ready [ack])))
      (fun t => cacheAt t 0x27 == 0 && did [[0xA7, 0, 0, 0, 0]] t) = true := by decide +kernel

theorem test_rotate_negative :
    holds (exec .rotate { ready [ack, ack] with q0 := 0xFFFFFF9C00000000 })
      (fun t => did [[0xA0, 0, 0, 0, 2], [0xA7, 0x00, 0x01, 0xD2, 0x08]] t) = true := by decide +kernel

/-- The second write fails: mode and velocity both stand in the cache. -/
theorem test_rotate_second_fails :
    holds (exec .rotate { ready [ack, nak] with q0 := 0xFFFFFF9C00000000 })
      (fun t => t.err == 1 && cacheAt t 0x20 == 2 && cacheAt t 0x27 == 0x0001D208) = true := by decide +kernel

theorem test_moveTo :
    holds (exec .moveTo { ready [ack, ack, ack] with v := 5000, q0 := 0x0000006400000000 })
      (fun t => did [[0xA0, 0, 0, 0, 0], [0xA3, 0x00, 0x01, 0xD2, 0x08], [0xAD, 0x00, 0x00, 0x13, 0x88]] t) = true := by
  decide +kernel

theorem test_moveTo_second_fails :
    holds (exec .moveTo { ready [ack, nak, ack] with v := 5000, q0 := 0x0000006400000000 })
      (fun t => t.err == 1 && cacheAt t 0x2D == 0 && t.answers == [ack]) = true := by decide +kernel

theorem test_setGlobalScaling :
    holds (exec .setGlobalScaling { ready [ack] with q0 := 0x0000000100000000 })
      (fun t => did [[0x8B, 0x00, 0x00, 0x01, 0x00]] t) = true := by decide +kernel

/-- A tie goes up: 3/512 gives 2. -/
theorem test_globalScale_tie : globalScale (3 / 512) = 2 ∧ globalScale (1 / 1024) = 0 ∧ globalScale (1 / 3) = 85 := by
  decide +kernel

theorem test_setLinearAcceleration :
    holds (exec .setLinearAcceleration { ready [ack, ack, ack, ack] with q0 := 0x000186A000000000 })
      (fun t => did [[0xA4, 0, 0, 0x05, 0xF7], [0xA6, 0, 0, 0x05, 0xF7], [0xA8, 0, 0, 0x05, 0xF7], [0xAA, 0, 0, 0x05, 0xF7]] t) =
      true := by decide +kernel

theorem test_setAdvancedAcceleration :
    holds (exec .setAdvancedAcceleration { ready [ack, ack, ack, ack] with
        q0 := 0x000003E800000000, q1 := 0x000186A000000000, q2 := 0x000F424000000000, q3 := 0 })
      (fun t => did [[0xA4, 0, 0, 0x00, 0x0F], [0xA6, 0, 0, 0x05, 0xF7], [0xA8, 0, 0, 0x3B, 0xA6], [0xAA, 0, 0, 0x00, 0x01]] t) =
      true := by decide +kernel

theorem test_setIrun :
    holds (exec .setIrun { ready [ack] with q0 := 0x0000000100000000 })
      (fun t => did [[0x90, 0x00, 0x00, 0x09, 0x00]] t) = true := by decide +kernel

theorem test_setIhold :
    holds (exec .setIhold (withCache 0x10 0x900 { ready [ack, ack] with q0 := 0x0000000080000000 }))
      (fun t => did [[0x90, 0x00, 0x00, 0x09, 0x04], [0x90, 0x00, 0x06, 0x09, 0x04]] t) = true := by decide +kernel

theorem test_setStealthChop_off :
    holds (exec .setStealthChop (withCache 0x00 0x00010004 { ready [ack] with v := 0xFFFFFFFE }))
      (fun t => cacheAt t 0x00 == 0x00010000 && did [[0x80, 0x00, 0x01, 0x00, 0x00]] t) = true := by decide +kernel

theorem test_getActualMotorPosition :
    holds (exec .getActualMotorPosition (ready [data 1 2 3 4, data 0x80 0 0 0]))
      (fun t => t.res == 0x80000000 && did [[0x21, 0, 0, 0, 0], [0, 0, 0, 0, 0]] t) = true := by decide +kernel

theorem test_getActualVelocity :
    holds (exec .getActualVelocity (ready [ack, data 0x00 0xFE 0x2D 0xF8]))
      (fun t => t.qres == 0x00000063FFDC7400 && did [[0x22, 0, 0, 0, 0], [0, 0, 0, 0, 0]] t) = true := by decide +kernel

/-- Bit 23 clear, bit 31 set: the word is used as it is. -/
theorem test_getActualVelocity_bit31 :
    holds (exec .getActualVelocity (ready [ack, data 0x80 0 0 0])) (fun t => t.qres == 0x001B774000000000) = true := by
  decide +kernel

/-! ## Wire frames -/

theorem test_dgramWrite :
    holds (exec (.dgramWrite 0x6C 0x12345678) (ready [nak]))
      (fun t => sent t == [[0xEC, 0x12, 0x34, 0x56, 0x78]] && bracketed t.trace && cacheAt t 0x6C == 0 && !t.txn.ok) = true := by
  decide +kernel

theorem test_dgramReadreq :
    holds (exec (.dgramReadreq 0x21) (ready [ack])) (fun t => sent t == [[0x21, 0, 0, 0, 0]]) = true := by decide +kernel

theorem test_dgramDummy :
    holds (exec .dgramDummy (ready [data 1 2 3 4]))
      (fun t => sent t == [[0, 0, 0, 0, 0]] && t.txn.rx.word == 0x01020304) = true := by decide +kernel

/-! ## The machine -/

theorem test_step_fetches_opcode :
    holds (step ((ready [ack]).withFetchWord 8 0x20)) (fun t => did [[0xA7, 0, 0, 0, 0]] t && t.host == []) = true := by
  decide +kernel

theorem test_step_fetches_frame :
    holds (step ((ready [ack]).withFetchWord 40 0xA70001D208)) (fun t => sent t == [[0xA7, 0x00, 0x01, 0xD2, 0x08]]) =
      true := by decide +kernel

theorem test_step_reserved : holds (step (issued 0x04)) (fun t => t.err == 5 && sent t == []) = true := by decide +kernel

/-- R27: the first phase of an accepted `STOP` updates the cache and emits nothing. -/
theorem test_phase_check :
    holds (advance { ready [ack] with cache := (ready []).cache.set 0x27 9, seq := .run 0x20 0 .check })
      (fun t => cacheAt t 0x27 == 0 && t.trace == [] && t.seq == .run 0x20 0 .sel1) = true := by decide +kernel

/-- R238: a failed transfer ends the command after its owed `Deselect`. -/
theorem test_phase_owed_deselect :
    holds (advance { ready [] with
        txn := ⟨⟨0xA7, 0, 0, 0, 0⟩, false, ⟨0, 0, 0, 0, 0⟩⟩
        trace := [.select, .transfer ⟨0xA7, 0, 0, 0, 0⟩ 0]
        seq := .run 0x20 0 .dsel1 })
      (fun t => bracketed t.trace && t.err == 1 && t.seq == .idle) = true := by decide +kernel

/-! ## Witnesses: for each obligation with hypotheses, a concrete input that meets all of them together -/

/-- Instance T with two more fields, on a volatile register and on a ReadOnly one (the first is spec/95_test_vectors.md's own
variant, 2.2). -/
def variant : Config :=
  { toConfigData := { Reference.data with
      fields := (8, ⟨0x21, 0, 8⟩) :: (9, ⟨0x22, 0, 8⟩) :: Reference.data.fields }
    ok := by decide +kernel }

/-- Instance T with the max-velocity role on a ReadOnly register. -/
def readOnlyVmax : Config :=
  { toConfigData := { Reference.data with regs := { Reference.data.regs with vmax := 0x0C } }
    ok := by decide +kernel }

/-- Instance T with a clock so fast that a speed does not fit Q31.32 (R164, the spec's decision D34). -/
def fastClock : Config :=
  { toConfigData := { Reference.data with clockHz := 2 ^ 60 }
    ok := by decide +kernel }

/-- Instance T with the role fields and the global scaler on ReadOnly registers. -/
def readOnlyRoles : Config :=
  { toConfigData := { Reference.data with
      fields := [(1, ⟨0x0C, 0, 5⟩), (2, ⟨0x0C, 8, 5⟩), (3, ⟨0x0C, 16, 4⟩), (4, ⟨0x0C, 31, 1⟩)]
      regs := { Reference.data.regs with current := 0x0C, globalScaler := 0x07 } }
    ok := by decide +kernel }

/-- `ready` of another configuration. -/
def readyOf (c : Config) (answers : List Answer) : State := { State.resetOf c with answers := answers }

theorem witness_DecodeEncodeRoundTrip : (Instr.dgramReadreq 0x7F).wellFormed = true := by decide

theorem witness_DecodedBytesReencode :
    decode [0xFF, 0xFF, 0xFF, 0xFF, 0xFF] = .ok (.dgramWrite 0x7F 0xFFFFFFFF) := by decide +kernel

/-- Both ends of each reserved range. -/
theorem witness_ReservedOpcodeEndsNotImplemented :
    ∀ op ∈ ([0x00, 0x04, 0x07, 0x0D, 0x0F, 0x15, 0x1F, 0x2B, 0xFF] : List Byte),
      (issued op).seq = .idle ∧ (issued op).host = .issue :: [] ∧
      ((issued op).op.toNat = 0x00 ∨ (0x04 ≤ (issued op).op.toNat ∧ (issued op).op.toNat ≤ 0x07) ∨
        (0x0D ≤ (issued op).op.toNat ∧ (issued op).op.toNat ≤ 0x0F) ∨
        (0x15 ≤ (issued op).op.toNat ∧ (issued op).op.toNat ≤ 0x1F) ∨ 0x2B ≤ (issued op).op.toNat) := by
  decide +kernel

/-- The narrowest field at the top and the widest one (also the premise of the clause on width 32). -/
theorem witness_MaskIsContiguousOnes :
    (⟨0, 31, 1⟩ : FieldDescriptor).fits = true ∧ (⟨0, 0, 32⟩ : FieldDescriptor).fits = true := by decide

theorem witness_ExtractIsZeroExtendedField : (⟨0, 0, 32⟩ : FieldDescriptor).fits = true := by decide

/-- Two adjacent fields are disjoint, and two values agree below the width. -/
theorem witness_ComposeLaws :
    (⟨0, 0, 5⟩ : FieldDescriptor).fits = true ∧ (⟨0, 5, 27⟩ : FieldDescriptor).fits = true ∧
    fieldMask ⟨0, 0, 5⟩ &&& fieldMask ⟨0, 5, 27⟩ = 0 ∧ (0x21 : Word).toNat % 2 ^ 5 = (1 : Word).toNat % 2 ^ 5 := by decide

/-- A known address, the last one in range (unknown), and the first one out of range. -/
theorem witness_LookupOfAddress :
    ((0x73 : Word).toNat ≤ 127 ∧ (ready []).cfg.register? 0x73 = some ⟨0x73, .readOnly, true⟩) ∧
    ((127 : Word).toNat ≤ 127 ∧ (ready []).cfg.register? ((127 : Word).setWidth 7) = none) ∧
    127 < (128 : Word).toNat := by decide +kernel

theorem witness_LookupCommand :
    (ready []).seq = .idle ∧ findRegister { ready [] with a := 0 }.cfg.toConfigData 0 = some ⟨0, .readWrite, false⟩ ∧
    findRegister (ready []).cfg.toConfigData 127 = none ∧ findRegister (ready []).cfg.toConfigData 128 = none := by
  decide +kernel

theorem witness_FieldExtractCommand :
    (ready []).seq = .idle ∧ findField { ready [] with a := 7 }.cfg.toConfigData 7 = some ⟨0x2D, 0, 32⟩ ∧
    findField { ready [] with a := 0xFFFFFFFF }.cfg.toConfigData 0xFFFFFFFF = none := by decide +kernel

theorem witness_FieldComposeCommand :
    (ready []).seq = .idle ∧ findField { ready [] with a := 4 }.cfg.toConfigData 4 = some ⟨0x00, 2, 1⟩ ∧
    findField { ready [] with a := 0 }.cfg.toConfigData 0 = none := by decide +kernel

theorem witness_WireFramesSendOneBracket :
    ∃ s ans rest, s.seq = .idle ∧ State.answers s = ans :: rest := ⟨ready [ack], ack, [], by decide, rfl⟩

/-- Unknown address; ReadOnly register; a writable one with the transfer answered `ok`, and failed. -/
theorem witness_WriteCommand :
    (ready []).seq = .idle ∧ findRegister (ready []).cfg.toConfigData 0x29 = none ∧
    findRegister (ready []).cfg.toConfigData 0x22 = some ⟨0x22, .readOnly, true⟩ ∧
    (⟨0x22, .readOnly, true⟩ : RegisterDescriptor).writable = false ∧
    findRegister (ready []).cfg.toConfigData 0x27 = some ⟨0x27, .writeOnly, false⟩ ∧
    (⟨0x27, .writeOnly, false⟩ : RegisterDescriptor).writable = true ∧
    (ready [ack]).answers = ack :: [] ∧ ack.ok = true ∧ (ready [nak]).answers = nak :: [] ∧ nak.ok = false := by
  decide +kernel

theorem witness_WriteFieldCommand :
    (readyOf variant [ack]).seq = .idle ∧ findField variant.toConfigData 99 = none ∧
    findField variant.toConfigData 9 = some ⟨0x22, 0, 8⟩ ∧ writableAt variant.toConfigData 0x22 = false ∧
    findField variant.toConfigData 8 = some ⟨0x21, 0, 8⟩ ∧ writableAt variant.toConfigData 0x21 = true ∧
    (readyOf variant [ack]).answers = ack :: [] ∧ ack.ok = true ∧ (readyOf variant [nak]).answers = nak :: [] ∧
    nak.ok = false := by decide +kernel

/-- Unknown; served from the cache (WriteOnly); hardware, for being volatile and for being ReadOnly alone; the first transfer
failed, the second failed, both `ok`. -/
theorem witness_ReadCommand :
    (ready []).seq = .idle ∧ findRegister (ready []).cfg.toConfigData 128 = none ∧
    findRegister (ready []).cfg.toConfigData 0x27 = some ⟨0x27, .writeOnly, false⟩ ∧
    findRegister (ready []).cfg.toConfigData 0x21 = some ⟨0x21, .readWrite, true⟩ ∧
    findRegister (ready []).cfg.toConfigData 0x0C = some ⟨0x0C, .readOnly, false⟩ ∧
    (ready [nak]).answers = nak :: [] ∧ (ready [ack, nak]).answers = ack :: nak :: [] ∧
    (ready [ack, data 1 2 3 4]).answers = ack :: data 1 2 3 4 :: [] ∧ ack.ok = true ∧ nak.ok = false ∧
    (data 1 2 3 4).ok = true := by decide +kernel

theorem witness_ReadFieldCommand :
    (readyOf variant []).seq = .idle ∧ findField variant.toConfigData 99 = none ∧
    findField variant.toConfigData 2 = some ⟨0x10, 8, 5⟩ ∧ variant.register? 0x10 = some ⟨0x10, .writeOnly, false⟩ ∧
    (⟨0x10, .writeOnly, false⟩ : RegisterDescriptor).hwRead = false ∧
    findField variant.toConfigData 8 = some ⟨0x21, 0, 8⟩ ∧ variant.register? 0x21 = some ⟨0x21, .readWrite, true⟩ ∧
    (⟨0x21, .readWrite, true⟩ : RegisterDescriptor).hwRead = true ∧
    (readyOf variant [nak]).answers = nak :: [] ∧ (readyOf variant [ack, nak]).answers = ack :: nak :: [] ∧
    (readyOf variant [ack, data 1 2 3 4]).answers = ack :: data 1 2 3 4 :: [] ∧ ack.ok = true ∧ nak.ok = false ∧
    (data 1 2 3 4).ok = true := by decide +kernel

/-- The last address in range and the first one out of it. -/
theorem witness_GetShadowCommand :
    (ready []).seq = .idle ∧ { ready [] with a := 127 }.a.toNat ≤ 127 ∧ 127 < { ready [] with a := 128 }.a.toNat := by
  decide

/-- With the write's transfer failed. -/
theorem witness_ReadAfterWrite :
    ∃ s t d, State.seq s = .idle ∧ findRegister s.cfg.toConfigData s.a = some d ∧ d.writable = true ∧ d.volatile = false ∧
      exec .write s = .next t := by
  obtain ⟨t, h, -⟩ := next_of_holds (show holds (exec .write { ready [nak] with a := 0x27, v := 5 }) (fun t => t.err == 1) =
    true by decide +kernel)
  exact ⟨_, t, ⟨0x27, .writeOnly, false⟩, by decide, by decide +kernel, by decide, by decide, h⟩

theorem witness_FieldWritesIndependent :
    ∃ (s t u : State) (F G : FieldDescriptor) (d : RegisterDescriptor) (f g x y : Word),
      s.seq = .idle ∧ findField s.cfg.toConfigData f = some F ∧ findField s.cfg.toConfigData g = some G ∧
      F.reg = G.reg ∧ fieldMask F &&& fieldMask G = 0 ∧ s.cfg.register? F.reg = some d ∧ d.writable = true ∧
      d.hwRead = false ∧ exec .writeField { s with a := f, v := x } = .next t ∧
      exec .writeField { t with a := g, v := y } = .next u := by
  obtain ⟨t, h, ht⟩ := next_of_holds (show holds (exec .writeField { ready [ack, nak] with a := 5, v := 3 })
    (fun t => holds (exec .writeField { t with a := 6, v := 4 }) fun u => u.err == 1) = true by decide +kernel)
  obtain ⟨u, hu, -⟩ := next_of_holds ht
  exact ⟨ready [ack, nak], t, u, ⟨0x6C, 0, 4⟩, ⟨0x6C, 24, 4⟩, ⟨0x6C, .readWrite, false⟩, 5, 6, 3, 4, by decide,
    by decide +kernel, by decide +kernel, by decide, by decide, by decide +kernel, by decide, by decide, h, hu⟩

theorem witness_FailedWriteStaysInCache :
    ∃ (s t : State) (d : RegisterDescriptor), s.seq = .idle ∧ exec .write s = .next t ∧ t.err = 1 ∧
      findRegister s.cfg.toConfigData s.a = some d ∧ d.volatile = false ∧ d.access ≠ .readOnly := by
  obtain ⟨t, h, ht⟩ := next_of_holds (show holds (exec .write { ready [nak] with a := 0x27, v := 5 })
    (fun t => decide (t.err = 1)) = true by decide +kernel)
  exact ⟨_, t, ⟨0x27, .writeOnly, false⟩, by decide, h, of_decide_eq_true ht, by decide +kernel, by decide, by decide⟩

/-- The least and the greatest register value: -2^-32 rpm gives 0, and just under 3 600 000 rpm gives 2^32 - 1. -/
theorem witness_RpmToVmaxCommand :
    (ready []).seq = .idle ∧
    0 = trunc (((-1 : Quad).toInt : Rat) * (ready []).cfg.fullSteps / (60 * (ready []).cfg.clockHz)) ∧
    2 ^ 32 - 1 =
      trunc (((0x0036EE7FFFFFFFFF : Quad).toInt : Rat) * (ready []).cfg.fullSteps / (60 * (ready []).cfg.clockHz)) := by
  decide +kernel

/-- The greatest operand of instance T fits; with a fast clock the operand 1 does not. -/
theorem witness_VmaxToRpmCommand :
    (ready []).seq = .idle ∧
    (((0xFFFFFFFF : Word).toNat : Rat) * (ready []).cfg.clockHz * 60 / (ready []).cfg.fullSteps).floor < 2 ^ 63 ∧
    (readyOf fastClock []).seq = .idle ∧
    2 ^ 63 ≤ (((0xFFFFFFFF : Word).toNat : Rat) * fastClock.clockHz * 60 / fastClock.fullSteps).floor := by decide +kernel

theorem witness_SpeedRoundTrip : (0 : Rat) ≤ 0 ∧ (0 : Rat) ≤ 1000 := by decide +kernel

theorem witness_CurrentScaleIsRealFormula : (ready []).seq = .idle := rfl

/-- Zero is at most zero, and 4 A are above instance T's full scale. -/
theorem witness_CurrentScaleProperties :
    (0 : Rat) ≤ 0 ∧ (13 / 40 : ℝ) / (Config.reference.rSense : ℝ) / Real.sqrt 2 ≤ ((5 : Rat) : ℝ) := by
  refine ⟨le_rfl, ?_⟩
  have h : (Config.reference.rSense : Rat) = 3 / 40 := rfl
  have h1 : (1 : ℝ) ≤ Real.sqrt 2 := Real.one_le_sqrt.mpr (by norm_num)
  rw [h, div_le_iff₀ (by positivity)]
  push_cast
  linarith

/-- Zero (1 by the clamp) and the greatest operand (65535 by the clamp). -/
theorem witness_AccelToRegisterCommand :
    (ready []).seq = .idle ∧ (0 : Quad).toInt ≤ 0 ∧
    1 = max 1 (min 65535 (trunc (((0 : Quad).toInt : Rat) * 2 ^ 9 / (ready []).cfg.clockHz ^ 2))) ∧
    65535 = max 1 (min 65535 (trunc (((0x00417B8CF0B19380 : Quad).toInt : Rat) * 2 ^ 9 / (ready []).cfg.clockHz ^ 2))) := by
  decide +kernel

theorem witness_DurationToTzerowaitCommand :
    (ready []).seq = .idle ∧ (0 : Quad).toInt ≤ 0 ∧
    0 = max 0 (min 65535 (trunc (((0x000000000002CBD3 : Quad).toInt : Rat) * (ready []).cfg.clockHz / 2 ^ 41))) ∧
    65535 = max 0 (min 65535 (trunc (((0x00000002CBD1244B : Quad).toInt : Rat) * (ready []).cfg.clockHz / 2 ^ 41))) := by
  decide +kernel

/-- The places where instance T's clamped conversions reach 65535. -/
theorem witness_ClampedConverterProperties :
    65535 * Config.reference.clockHz ^ 2 / 2 ^ 41 ≤ (4291469 : Rat) ∧ 65535 * 2 ^ 9 / Config.reference.clockHz ≤ (2.8 : Rat) ∧
    ¬ 65535 * Config.reference.clockHz ^ 2 / 2 ^ 41 ≤ (4291468 : Rat) ∧
    ¬ 65535 * 2 ^ 9 / Config.reference.clockHz ≤ (2.796159 : Rat) ∧ (0 : Rat) ≤ 1 := by decide +kernel

/-- Max velocity on a ReadOnly register; on a writable one, its transfer answered `ok`, and failed. -/
theorem witness_StopCommand :
    (readyOf readOnlyVmax []).seq = .idle ∧ writableAt readOnlyVmax.toConfigData readOnlyVmax.regs.vmax = false ∧
    (ready [ack]).seq = .idle ∧ (ready [ack]).answers = ack :: [] ∧
    writableAt (ready [ack]).cfg.toConfigData (ready [ack]).cfg.regs.vmax = true ∧ ack.ok = true ∧
    (ready [nak]).answers = nak :: [] ∧ nak.ok = false := by decide +kernel

/-- Zero (positive by rule), and the greatest magnitude in range. -/
theorem witness_RotateCommand :
    let s := { ready [ack, ack] with q0 := 0xFFC91180_00000001 }
    s.seq = .idle ∧ s.answers = ack :: ack :: [] ∧ ack.ok = true ∧
    writableAt s.cfg.toConfigData s.cfg.regs.rampmode = true ∧ writableAt s.cfg.toConfigData s.cfg.regs.vmax = true ∧
    ((0xFFFFFFFF : Word).toNat : Int) = vmaxOf s.cfg.toConfigData |quantity s.q0| ∧
    ((0 : Word).toNat : Int) = vmaxOf s.cfg.toConfigData |quantity 0| := by decide +kernel

/-- Each clause at its boundary: -1 and 2^32 as register values. -/
theorem witness_OutOfRangeSpeedStillCompletes :
    let s := ready [ack, ack, ack]
    s.seq = .idle ∧ s.answers = ack :: ack :: ack :: [] ∧ ack.ok = true ∧
    vmaxOf s.cfg.toConfigData (quantity 0xFFFFFFFFFFC91180) = -1 ∧
    vmaxOf s.cfg.toConfigData (quantity 0x0036EE8000000000) = 2 ^ 32 ∧
    vmaxOf s.cfg.toConfigData |quantity 0xFFC9118000000000| = 2 ^ 32 ∧
    writableAt s.cfg.toConfigData s.cfg.regs.rampmode = true ∧ writableAt s.cfg.toConfigData s.cfg.regs.vmax = true ∧
    writableAt s.cfg.toConfigData s.cfg.regs.startSpeed = true ∧
    writableAt s.cfg.toConfigData s.cfg.regs.xtarget = true := by decide +kernel

theorem witness_RotateSignByModeOnly :
    let s := { ready [ack, ack] with q0 := 1 }
    s.seq = .idle ∧ s.answers = ack :: ack :: [] ∧ ack.ok = true ∧
    writableAt s.cfg.toConfigData s.cfg.regs.rampmode = true ∧ writableAt s.cfg.toConfigData s.cfg.regs.vmax = true ∧
    0 < s.q0.toInt ∧ vmaxOf s.cfg.toConfigData |quantity s.q0| < 2 ^ 32 := by decide +kernel

theorem witness_MoveToCommand :
    let s := { ready [ack, ack, ack] with v := 5000, q0 := 0x0036EE7FFFFFFFFF }
    s.seq = .idle ∧ s.answers = ack :: ack :: ack :: [] ∧ ack.ok = true ∧
    writableAt s.cfg.toConfigData s.cfg.regs.rampmode = true ∧
    writableAt s.cfg.toConfigData s.cfg.regs.startSpeed = true ∧ writableAt s.cfg.toConfigData s.cfg.regs.xtarget = true ∧
    ((0xFFFFFFFF : Word).toNat : Int) = vmaxOf s.cfg.toConfigData (quantity s.q0) := by decide +kernel

theorem witness_SetGlobalScalingCommand :
    let s := ready [ack]
    s.seq = .idle ∧ s.answers = ack :: [] ∧ ack.ok = true ∧ (ready [nak]).answers = nak :: [] ∧ nak.ok = false ∧
    writableAt s.cfg.toConfigData s.cfg.regs.globalScaler = true ∧ (readyOf readOnlyRoles []).seq = .idle ∧
    writableAt readOnlyRoles.toConfigData readOnlyRoles.regs.globalScaler = false := by decide +kernel

/-- The three clauses, each at its boundary and beyond it. -/
theorem witness_GlobalScalingProperties :
    let s := ready [ack]
    s.seq = .idle ∧ s.answers = ack :: [] ∧ ack.ok = true ∧
    writableAt s.cfg.toConfigData s.cfg.regs.globalScaler = true ∧
    quantity 0 ≤ 0 ∧ quantity 0xFFFFFFFD00000000 ≤ 0 ∧ quantity 0x0000000080000000 = 1 / 2 ∧
    1 ≤ quantity 0x0000000100000000 ∧ 1 ≤ quantity 0x0000000200000000 := by decide +kernel

/-- Zero acceleration: the least register value. -/
theorem witness_SetLinearAccelerationCommand :
    let s := ready [ack, ack, ack, ack]
    s.seq = .idle ∧ s.answers = ack :: ack :: ack :: ack :: [] ∧ ack.ok = true ∧
    writableAt s.cfg.toConfigData s.cfg.regs.a1 = true ∧ writableAt s.cfg.toConfigData s.cfg.regs.amax = true ∧
    writableAt s.cfg.toConfigData s.cfg.regs.dmax = true ∧ writableAt s.cfg.toConfigData s.cfg.regs.d1 = true ∧
    ((1 : Word).toNat : Int) = aregOf s.cfg.toConfigData (quantity s.q0) := by decide +kernel

theorem witness_SetAdvancedAccelerationCommand :
    let s := { ready [ack, ack, ack, ack] with q1 := 0x7FFFFFFFFFFFFFFF, q2 := 0x000F424000000000, q3 := -1 }
    s.seq = .idle ∧ s.answers = ack :: ack :: ack :: ack :: [] ∧ ack.ok = true ∧
    writableAt s.cfg.toConfigData s.cfg.regs.a1 = true ∧ writableAt s.cfg.toConfigData s.cfg.regs.amax = true ∧
    writableAt s.cfg.toConfigData s.cfg.regs.dmax = true ∧ writableAt s.cfg.toConfigData s.cfg.regs.d1 = true ∧
    ((1 : Word).toNat : Int) = aregOf s.cfg.toConfigData (quantity s.q0) ∧
    ((65535 : Word).toNat : Int) = aregOf s.cfg.toConfigData (quantity s.q1) ∧
    ((15270 : Word).toNat : Int) = aregOf s.cfg.toConfigData (quantity s.q2) ∧
    ((1 : Word).toNat : Int) = aregOf s.cfg.toConfigData (quantity s.q3) := by decide +kernel

theorem witness_SetIrunCommand :
    let s := { ready [ack] with q0 := 0x0000000500000000 }
    s.seq = .idle ∧ s.answers = ack :: [] ∧ findField s.cfg.toConfigData s.cfg.roleFields.irun = some ⟨0x10, 8, 5⟩ ∧
    writableAt s.cfg.toConfigData 0x10 = true ∧
    ((31 : Word).toNat : Int) = csOf s.cfg.toConfigData (quantity s.q0) ∧ ack.ok = true ∧
    (ready [nak]).answers = nak :: [] ∧ nak.ok = false ∧ (readyOf readOnlyRoles []).seq = .idle ∧
    findField readOnlyRoles.toConfigData readOnlyRoles.roleFields.irun = some ⟨0x0C, 8, 5⟩ ∧
    writableAt readOnlyRoles.toConfigData 0x0C = false := by decide +kernel

theorem witness_SetIholdCommand :
    let s := { ready [ack, ack] with q0 := 0x0000000080000000 }
    s.seq = .idle ∧ s.answers = ack :: ack :: [] ∧ ack.ok = true ∧
    findField s.cfg.toConfigData s.cfg.roleFields.ihold = some ⟨0x10, 0, 5⟩ ∧
    findField s.cfg.toConfigData s.cfg.roleFields.iholddelay = some ⟨0x10, 16, 4⟩ ∧
    writableAt s.cfg.toConfigData s.cfg.regs.current = true ∧
    ((4 : Word).toNat : Int) = csOf s.cfg.toConfigData (quantity s.q0) ∧
    (4 : Word) = fieldCompose ⟨0x10, 0, 5⟩ (cacheAt s s.cfg.regs.current) 4 := by decide +kernel

theorem witness_SetStealthChopCommand :
    let s := { ready [ack] with v := 0xFFFFFFFE }
    s.seq = .idle ∧ s.answers = ack :: [] ∧ findField s.cfg.toConfigData s.cfg.roleFields.stealth = some ⟨0x00, 2, 1⟩ ∧
    writableAt s.cfg.toConfigData 0x00 = true ∧ ack.ok = true ∧ (ready [nak]).answers = nak :: [] ∧ nak.ok = false ∧
    (readyOf readOnlyRoles []).seq = .idle ∧
    findField readOnlyRoles.toConfigData readOnlyRoles.roleFields.stealth = some ⟨0x0C, 31, 1⟩ ∧
    writableAt readOnlyRoles.toConfigData 0x0C = false := by decide +kernel

theorem witness_GetActualMotorPositionCommand :
    (ready []).seq = .idle ∧ (ready [nak]).answers = nak :: [] ∧ nak.ok = false ∧
    (ready [ack, nak]).answers = ack :: nak :: [] ∧ ack.ok = true ∧
    (ready [ack, data 0x7F 0xFF 0xFF 0xFF]).answers = ack :: data 0x7F 0xFF 0xFF 0xFF :: [] ∧
    (data 0x7F 0xFF 0xFF 0xFF).ok = true := by decide

/-- Bit 23 set at its boundary; the greatest magnitude (bit 31 alone); with a fast clock a speed that does not fit. -/
theorem witness_GetActualVelocityCommand :
    (ready [nak]).answers = nak :: [] ∧ (ready [ack, nak]).answers = ack :: nak :: [] ∧ nak.ok = false ∧
    (ready [ack, data 0 0x80 0 0]).seq = .idle ∧
    (ready [ack, data 0 0x80 0 0]).answers = ack :: data 0 0x80 0 0 :: [] ∧ ack.ok = true ∧ (data 0 0x80 0 0).ok = true ∧
    8388608 = (if (data 0 0x80 0 0).rx.word.getLsbD 23 then (data 0 0x80 0 0).rx.word ||| 0xFF000000
      else (data 0 0x80 0 0).rx.word).toInt.natAbs ∧
    (((8388608 : Nat) : Rat) * (ready []).cfg.clockHz * 60 / (ready []).cfg.fullSteps).floor < 2 ^ 63 ∧
    2 ^ 31 = (if (data 0x80 0 0 0).rx.word.getLsbD 23 then (data 0x80 0 0 0).rx.word ||| 0xFF000000
      else (data 0x80 0 0 0).rx.word).toInt.natAbs ∧
    (readyOf fastClock [ack, data 0x80 0 0 0]).answers = ack :: data 0x80 0 0 0 :: [] ∧
    2 ^ 63 ≤ (((2 ^ 31 : Nat) : Rat) * fastClock.clockHz * 60 / fastClock.fullSteps).floor := by decide +kernel

/-- Each clause at the boundary of its range: the greatest speed in range and the least out of it, on both sides. -/
theorem witness_CompositeCommandsFailFast :
    let s := ready [ack, ack, ack, nak]
    s.seq = .idle ∧
    ((0xFFFFFFFF : Word).toNat : Int) = vmaxOf s.cfg.toConfigData |quantity 0xFFC9118000000001| ∧
    2 ^ 32 ≤ vmaxOf s.cfg.toConfigData |quantity 0xFFC9118000000000| ∧
    ((0xFFFFFFFF : Word).toNat : Int) = vmaxOf s.cfg.toConfigData (quantity 0x0036EE7FFFFFFFFF) ∧
    vmaxOf s.cfg.toConfigData (quantity 0xFFFFFFFFFFC91180) < 0 ∧
    2 ^ 32 ≤ vmaxOf s.cfg.toConfigData (quantity 0x0036EE8000000000) ∧
    ((1 : Word).toNat : Int) = aregOf s.cfg.toConfigData (quantity s.q0) ∧
    ((65535 : Word).toNat : Int) = aregOf s.cfg.toConfigData (quantity 0x7FFFFFFFFFFFFFFF) ∧
    findField s.cfg.toConfigData s.cfg.roleFields.ihold = some ⟨0x10, 0, 5⟩ ∧
    findField s.cfg.toConfigData s.cfg.roleFields.iholddelay = some ⟨0x10, 16, 4⟩ ∧
    ((4 : Word).toNat : Int) = csOf s.cfg.toConfigData (quantity 0x0000000080000000) ∧
    (4 : Word) = fieldCompose ⟨0x10, 0, 5⟩ (cacheAt s s.cfg.regs.current) 4 := by decide +kernel

/-- The other forms the same statement covers: a ReadOnly role met partway (`ROTATE`) and first (`SET_IHOLD`). -/
theorem witness_CompositeCommandsFailFast_readOnly :
    (readyOf readOnlyVmax [ack]).seq = .idle ∧
    writableAt readOnlyVmax.toConfigData readOnlyVmax.regs.rampmode = true ∧
    writableAt readOnlyVmax.toConfigData readOnlyVmax.regs.vmax = false ∧
    ((0 : Word).toNat : Int) = vmaxOf readOnlyVmax.toConfigData |quantity 0| ∧
    writableAt readOnlyRoles.toConfigData readOnlyRoles.regs.current = false ∧
    findField readOnlyRoles.toConfigData readOnlyRoles.roleFields.ihold = some ⟨0x0C, 0, 5⟩ ∧
    findField readOnlyRoles.toConfigData readOnlyRoles.roleFields.iholddelay = some ⟨0x0C, 16, 4⟩ := by decide +kernel

/-- A state with a `Deselect` owed, one without, and an idle one. -/
theorem witness_RaiseEndsCommand :
    { ready [] with seq := .run 0x20 0 .dsel1 }.seq = .run 0x20 0 .dsel1 ∧
    { ready [] with seq := .run 0x20 0 .check }.seq = .run 0x20 0 .check ∧ (ready []).seq = .idle := by decide

theorem witness_ErrorKindsByCommand : Instr.getShadow.isCommand = true ∧ (ready []).seq = .idle := by decide

theorem witness_BusyBlockRefuses :
    { ready [] with seq := .run 0x20 0 .check }.seq = .run 0x20 0 .check ∧ (∀ f, HostAction.reset ≠ .frame f) := by
  constructor
  · decide
  · intro f
    exact HostAction.noConfusion

theorem witness_OperandRegistersNeverWritten : ∃ i s t, exec i s = .next t :=
  ⟨.write, _, _, (next_of_holds (show holds (exec .write { ready [ack] with a := 0x27 }) (fun t => t.err == 0) = true by
    decide +kernel)).choose_spec.1⟩

/-- A command that succeeds with each result register, one that fails, and a wire frame. -/
theorem witness_ResultRegisterFrame :
    holds (exec .getShadow { ready [] with a := 127 }) (fun t => t.err == 0) = true ∧ Instr.getShadow.writesRes = true ∧
    holds (exec .vmaxToRpm (ready [])) (fun t => t.err == 0) = true ∧ Instr.vmaxToRpm.writesQres = true ∧
    holds (exec .getShadow { ready [] with a := 128 }) (fun t => t.err != 0) = true ∧ Instr.getShadow.isCommand = true ∧
    holds (exec .dgramDummy (ready [ack])) (fun _ => true) = true ∧ Instr.dgramDummy.isCommand = false := by
  decide +kernel

theorem witness_CacheChangesOnlyAtTargets :
    holds (exec .stop (withCache 0x27 5 (ready [ack]))) (fun _ => true) = true ∧ (0x20 : Addr) ∉ writeTargets .stop (ready []) := by
  decide +kernel

theorem witness_UnnamedOperandsDoNotMatter : PortReg.w ∉ Instr.write.operands ∧ PortReg.q3 ∉ Instr.rotate.operands := by
  decide

theorem witness_OneAnswerPerBracket :
    Instr.setLinearAcceleration.isCommand = true ∧ (ready [ack, ack, nak, ack]).seq = .idle ∧
    4 ≤ (ready [ack, ack, nak, ack]).answers.length ∧
    holds (exec .setLinearAcceleration (ready [ack, ack, nak, ack])) (fun t => t.err == 1) = true := by decide +kernel

/-- In instance T the ramp mode has its register to itself, and `ROTATE`, `MOVE_TO` and `STOP` run there. -/
theorem witness_RampModeTransitions :
    let s := ready [nak]
    s.seq = .idle ∧ writableAt s.cfg.toConfigData s.cfg.regs.rampmode = true ∧
    s.cfg.regs.rampmode ∉ [s.cfg.regs.vmax, s.cfg.regs.startSpeed, s.cfg.regs.xtarget, s.cfg.regs.globalScaler,
      s.cfg.regs.a1, s.cfg.regs.amax, s.cfg.regs.dmax, s.cfg.regs.d1, s.cfg.regs.current] ∧
    (∀ F, findField s.cfg.toConfigData s.cfg.roleFields.stealth = some F → F.reg ≠ s.cfg.regs.rampmode) ∧
    holds (exec .rotate s) (fun t => t.err == 1) = true ∧ holds (exec .moveTo s) (fun t => t.err == 1) = true ∧
    holds (exec .stop s) (fun t => t.err == 1) = true := by
  refine ⟨by decide, by decide +kernel, by decide, ?_, by decide +kernel, by decide +kernel, by decide +kernel⟩
  intro F h
  rw [show findField (ready [nak]).cfg.toConfigData (ready [nak]).cfg.roleFields.stealth = some ⟨0x00, 2, 1⟩ by
    decide +kernel] at h
  cases h
  decide

theorem witness_StepRunsDecodedInstruction :
    (issued 0x20).seq = .idle ∧ (issued 0x20).host = .issue :: [] ∧ decode [(issued 0x20).op] = .ok .stop ∧
    { ready [] with host := [.frame ⟨0xFF, 0, 0, 0, 0⟩] }.host = .frame ⟨0xFF, 0, 0, 0, 0⟩ :: [] ∧
    decode (⟨0xFF, 0, 0, 0, 0⟩ : Frame).bytes = .ok (.dgramWrite 0x7F 0) := by decide +kernel

theorem witness_PhasesRunWholeCommand :
    { ready [] with host := [.start] }.seq = .idle ∧ { ready [] with host := [.start] }.host = .start :: [] := by decide

/-- The last phase of the longest command, and the one phase of a reserved opcode. -/
theorem witness_PhasesProgress :
    seqLegal (.run 0x24 3 .done) = true ∧ Seq.run 0x24 3 .done ≠ .idle ∧ seqLegal (.run 0xFF 0 .check) = true := by
  decide +kernel

/-- `STOP` with its bracket open. -/
def midStop : State :=
  { ready [ack] with
    txn := ⟨Frame.write 0x27 0, true, ⟨0, 0, 0, 0, 0⟩⟩
    trace := [.select]
    seq := .run 0x20 0 .xfer1 }

/-- The invariant in the middle of a command, and its next step. -/
theorem witness_StepKeepsInvariant : Inv midStop ∧ ∃ t, step midStop = .next t := by
  obtain ⟨t, h, -⟩ := next_of_holds (show holds (step midStop) (fun t => t.seq == .run 0x20 0 .dsel1) = true by
    decide +kernel)
  refine ⟨⟨by decide +kernel, ⟨[], rfl, rfl⟩, ?_, fun _ => by decide, ?_, by decide⟩, t, h⟩
  · intro tx n hm
    simp [midStop] at hm
  · intro a _
    show (Vector.replicate 128 (0 : Word))[a.toNat] = 0
    simp

theorem witness_ResetLeaves : (ready [ack]).seq = .idle := rfl

/-- Result registers with a value and without one. -/
theorem witness_HostPortAccess :
    (ready []).seq = .idle ∧ { ready [] with resHeld := true, qresHeld := true }.resHeld = true ∧
    { ready [] with resHeld := true, qresHeld := true }.qresHeld = true ∧ (ready []).resHeld = false ∧
    (ready []).qresHeld = false := by decide

end Sys2Proof.Tests
end

section
/-! SUPPORT. What ends a command, and when an instruction is accepted: the state after `raise` (spec/60_exceptions.md R238),
every instruction and host action while a command is in progress and in `IDLE` (spec/10_state.md R28). -/

namespace Sys2Proof.Machine

open Sys2Proof Sys2Proof.Safety

variable {s t : State}

/-! ## The state after `raise` -/

section
variable (k : ErrKind) (s : State)

@[simp] theorem raise_cfg : (raise k s).cfg = s.cfg := by unfold raise; split <;> rfl
@[simp] theorem raise_op : (raise k s).op = s.op := by unfold raise; split <;> rfl
@[simp] theorem raise_a : (raise k s).a = s.a := by unfold raise; split <;> rfl
@[simp] theorem raise_v : (raise k s).v = s.v := by unfold raise; split <;> rfl
@[simp] theorem raise_w : (raise k s).w = s.w := by unfold raise; split <;> rfl
@[simp] theorem raise_q0 : (raise k s).q0 = s.q0 := by unfold raise; split <;> rfl
@[simp] theorem raise_q1 : (raise k s).q1 = s.q1 := by unfold raise; split <;> rfl
@[simp] theorem raise_q2 : (raise k s).q2 = s.q2 := by unfold raise; split <;> rfl
@[simp] theorem raise_q3 : (raise k s).q3 = s.q3 := by unfold raise; split <;> rfl
@[simp] theorem raise_host : (raise k s).host = s.host := by unfold raise; split <;> rfl
@[simp] theorem raise_cache : (raise k s).cache = s.cache := by unfold raise; split <;> rfl
@[simp] theorem raise_txn : (raise k s).txn = s.txn := by unfold raise; split <;> rfl
@[simp] theorem raise_answers : (raise k s).answers = s.answers := by unfold raise; split <;> rfl
@[simp] theorem raise_seq : (raise k s).seq = .idle := rfl
@[simp] theorem raise_resHeld : (raise k s).resHeld = false := rfl
@[simp] theorem raise_qresHeld : (raise k s).qresHeld = false := rfl
@[simp] theorem raise_err : (raise k s).err = k.code := rfl

end

/-- R230: no error has the code of success. -/
theorem ErrKind.code_ne_zero (k : ErrKind) : k.code ≠ 0 := by cases k <;> decide

/-! ## Instructions in `IDLE` and in `RUN` -/

/-- R28: no instruction is accepted while a command is in progress. -/
theorem exec_busy {op : Byte} {k : Nat} {ph : Phase} (h : s.seq = .run op k ph) (i : Instr) :
    exec i s = .refused .busy := by
  cases i with
  | dgramWrite a v => simp [exec, execDgramWrite, sendFrame, h]
  | dgramReadreq a => simp [exec, execDgramReadreq, sendFrame, h]
  | dgramDummy => simp [exec, execDgramDummy, sendFrame, h]
  | _ =>
    simp only [exec, execLookup, execFieldExtract, execFieldCompose, execWrite, execWriteField, execRead, execReadField,
      execGetShadow, execRpmToVmax, execVmaxToRpm, execCurrentToCs, execAccelToRegister, execDurationToTzerowait,
      execStop, execRotate, execMoveTo, execSetGlobalScaling, execSetLinearAcceleration, execSetAdvancedAcceleration,
      execSetIrun, execSetIhold, execGetActualMotorPosition, execGetActualVelocity, execSetStealthChop,
      command_busy _ h]

/-- R131: a wire frame by itself, in `IDLE`, is one bracket of a frame the block builds. -/
theorem exec_wireFrame {i : Instr} (hi : i.isCommand = false) (h : s.seq = .idle) :
    ∃ f, blockFrame f = true ∧ exec i s = .next (bracket f s) := by
  cases i with
  | dgramWrite a v => exact ⟨Frame.write a v, by simp, by simp [exec, execDgramWrite, sendFrame, h]⟩
  | dgramReadreq a => exact ⟨Frame.readReq a, by simp, by simp [exec, execDgramReadreq, sendFrame, h]⟩
  | dgramDummy => exact ⟨Frame.dummy, by simp, by simp [exec, execDgramDummy, sendFrame, h]⟩
  | _ => simp [Instr.isCommand] at hi

/-- In `IDLE` every instruction answers a next state. -/
theorem exec_idle (i : Instr) (h : s.seq = .idle) : ∃ t, exec i s = .next t := by
  cases hi : i.isCommand with
  | true =>
    obtain ⟨r, hr, -⟩ := exec_command i s hi h
    exact ⟨_, hr⟩
  | false =>
    obtain ⟨f, -, hf⟩ := exec_wireFrame hi h
    exact ⟨_, hf⟩

/-- An instruction with a next state was accepted in `IDLE`. -/
theorem idle_of_exec_next {i : Instr} (h : exec i s = .next t) : s.seq = .idle := by
  cases hs : s.seq with
  | idle => rfl
  | run op k ph => simp [exec_busy hs] at h

/-- The three ways an instruction ends, from the state `u` that its sub-operations leave: an error raised, a result
delivered, or, for a wire frame by itself, nothing more. -/
def ExecEnded (i : Instr) (u t : State) : Prop :=
  (i.isCommand = true ∧ ∃ kind, t = raise kind u) ∨
  (i.isCommand = true ∧ ∃ v, Delivered i u v ∧ t = succeed v) ∨
  (i.isCommand = false ∧ t = u)

/-- Everything an instruction can do: bus frames sent and target registers written, then one of the three ends. -/
theorem exec_next_inv {i : Instr} (h : exec i s = .next t) :
    ∃ u sent wrote, Ran s u sent wrote ∧ (∀ a ∈ wrote, a ∈ writeTargets i s) ∧ ExecEnded i u t := by
  have hs := idle_of_exec_next h
  cases hi : i.isCommand with
  | true =>
    obtain ⟨r, hr, c, ⟨sent, wrote, hran, -, hw, -, -⟩, hc⟩ := exec_command i s hi hs
    obtain rfl : finish r = t := by simpa [hr] using h
    obtain ⟨kind, u, rfl, rfl⟩ | ⟨u, v, rfl, rfl, hv⟩ := hc
    · exact ⟨u, sent, wrote, hran, hw, .inl ⟨hi, kind, rfl⟩⟩
    · exact ⟨u, sent, wrote, hran, hw, .inr (.inl ⟨hi, v, hv, rfl⟩)⟩
  | false =>
    obtain ⟨f, hf, he⟩ := exec_wireFrame hi hs
    obtain rfl : bracket f s = t := by simpa [he] using h
    exact ⟨_, _, _, bracket_ran f hf s, by simp, .inr (.inr ⟨hi, rfl⟩)⟩

/-! ## The opcode in `OP` and the host's actions -/

theorem decode_opcode {op : Byte} {i : Instr} (h : decodeCommand op = some i) : decode [op] = .ok i := by
  simp [decode, h]

theorem decode_reserved {op : Byte} (h : decodeCommand op = none) : decode [op] = .error (.reservedOpcode op) := by
  simp [decode, h]

theorem issue_known {i : Instr} (h : decodeCommand s.op = some i) : issue s = exec i s := by
  simp [issue, decode_opcode h]

/-- R91. -/
theorem issue_reserved (h : decodeCommand s.op = none) : issue s = command (fun s => .err .notImplemented s) s := by
  simp [issue, decode_reserved h, issueReserved]

/-- R28, R88: no issue event is accepted while a command is in progress. -/
theorem issue_busy {op : Byte} {k : Nat} {ph : Phase} (h : s.seq = .run op k ph) : issue s = .refused .busy := by
  cases hd : decodeCommand s.op with
  | none => rw [issue_reserved hd, command_busy _ h]
  | some i => rw [issue_known hd, exec_busy h]

/-- R88: in `IDLE` an issue event always answers a next state. -/
theorem issue_idle (h : s.seq = .idle) : ∃ t, issue s = .next t := by
  cases hd : decodeCommand s.op with
  | none => exact ⟨_, (issue_reserved hd).trans (command_idle _ h)⟩
  | some i => rw [issue_known hd]; exact exec_idle i h

theorem whenIdle_idle (act : State → State) (h : s.seq = .idle) : whenIdle act s = .next (act s) := by
  simp [whenIdle, h]

theorem whenIdle_busy (act : State → State) {op : Byte} {k : Nat} {ph : Phase} (h : s.seq = .run op k ph) :
    whenIdle act s = .refused .busy := by
  simp [whenIdle, h]

/-- In `IDLE` a host's action is refused only where it hands over a frame the block never sends. -/
theorem perform_idle (act : HostAction) (h : s.seq = .idle) :
    (∃ t, perform act s = .next t) ∨ perform act s = .refused .foreignFrame := by
  cases act with
  | issue => exact .inl (issue_idle h)
  | frame f =>
    simp only [perform, issueFrame]
    cases decode f.bytes with
    | ok i => exact .inl (exec_idle i h)
    | error e => exact .inr rfl
  | _ =>
    simp [perform, portWriteOp, portWriteA, portWriteV, portWriteW, portWriteQ0, portWriteQ1, portWriteQ2, portWriteQ3,
      portReset, whenIdle_idle _ h]

end Sys2Proof.Machine
end

section
/-! PROOFS. The port, reset and the frames of the commands (spec/10_state.md sections 1 to 3, 6 and 10). -/

namespace Sys2Proof.Machine

open Sys2Proof Sys2Proof.Safety

/-- Settles O47: every instruction, port write, issue event and reset asks for `IDLE` first. -/
theorem busyBlockRefuses : Obligations.BusyBlockRefuses := by
  intro s op k ph h
  refine ⟨exec_busy h, fun act hact => ?_⟩
  cases act with
  | issue => exact issue_busy h
  | frame f => exact absurd rfl (hact f)
  | _ =>
    simp only [perform, portWriteOp, portWriteA, portWriteV, portWriteW, portWriteQ0, portWriteQ1, portWriteQ2,
      portWriteQ3, portReset, whenIdle_busy _ h]

/-- Settles O58: no event, an empty cache and `ERR` 0. -/
theorem resetHasInvariant : Obligations.ResetHasInvariant := by
  intro c
  exact {
    seqOk := rfl
    events := rfl
    frames := fun _ _ h => absurd h List.not_mem_nil
    pending := fun h => absurd h Bool.false_ne_true
    cacheOk := fun a _ => by simp [cacheAt, State.resetOf]
    errOk := rfl }

/-- Settles O59, by the fields of `resetInPlace`. -/
theorem resetLeaves : Obligations.ResetLeaves := by
  intro s h
  refine ⟨resetInPlace s, whenIdle_idle _ h, fun a => by simp [cacheAt], ?_⟩
  simp

/-- Settles O60: in `IDLE` each port write is its own update; a read draws only where the register holds no value. -/
theorem hostPortAccess : Obligations.HostPortAccess := by
  intro s h
  simp only [perform, portWriteOp, portWriteA, portWriteV, portWriteW, portWriteQ0, portWriteQ1, portWriteQ2, portWriteQ3,
    whenIdle_idle _ h, implies_true, true_and]
  refine ⟨rfl, fun hr => if_pos hr, fun hq => if_pos hq, fun hr => ?_, fun hq => ?_⟩
  · exact ⟨Config.freeWord s.draws, by simp [portReadRes, hr, drawWord]⟩
  · exact ⟨Config.freeQuad s.draws, by simp [portReadQres, hq, drawQuad]⟩

/-- Settles O48: the sub-operations keep these registers, and so does each end of an instruction. -/
theorem operandRegistersNeverWritten : Obligations.OperandRegistersNeverWritten := by
  intro i s t h
  have hs := idle_of_exec_next h
  obtain ⟨u, sent, wrote, hr, -, he⟩ := exec_next_inv h
  obtain ⟨-, kind, rfl⟩ | ⟨-, v, ⟨x, hx, y, hy, d, rfl, -⟩, rfl⟩ | ⟨-, rfl⟩ := he
  · simp [hr.cfg, hr.op, hr.a, hr.v, hr.w, hr.q0, hr.q1, hr.q2, hr.q3, hr.host, hs]
  · simp [hr.cfg, hr.op, hr.a, hr.v, hr.w, hr.q0, hr.q1, hr.q2, hr.q3, hr.host, hs]
  · exact ⟨hr.cfg, hr.op, hr.a, hr.v, hr.w, hr.q0, hr.q1, hr.q2, hr.q3, hr.host, hr.seq⟩

/-- Settles O49: only the delivery at a command's end writes a result register, and only `raise` takes a value away. -/
theorem resultRegisterFrame : Obligations.ResultRegisterFrame := by
  intro i s t h
  obtain ⟨u, sent, wrote, hr, -, he⟩ := exec_next_inv h
  obtain ⟨hi, kind, rfl⟩ | ⟨hi, v, ⟨x, hx, y, hy, d, rfl, h1, h2, h3, h4⟩, rfl⟩ | ⟨hi, rfl⟩ := he
  · exact ⟨fun _ h0 => absurd h0 kind.code_ne_zero, by simp, by simp [hi]⟩
  · rw [hr.res, hr.resHeld] at h3
    rw [hr.qres, hr.qresHeld] at h4
    simpa [hi] using ⟨h1, h2, h3, h4⟩
  · simp [hi, hr.res, hr.resHeld, hr.qres, hr.qresHeld, hr.err]

/-- Settles O50: the sub-operations write only at the command's targets, and no end of an instruction writes the
cache. -/
theorem cacheChangesOnlyAtTargets : Obligations.CacheChangesOnlyAtTargets := by
  intro i s t h a ha
  obtain ⟨u, sent, wrote, hr, hw, he⟩ := exec_next_inv h
  have hu : cacheAt u a = cacheAt s a := hr.cache a fun hm => ha (hw a hm)
  have ht : t.cache = u.cache := by
    obtain ⟨-, kind, rfl⟩ | ⟨-, v, ⟨x, hx, y, hy, d, rfl, -⟩, rfl⟩ | ⟨-, rfl⟩ := he
    · exact raise_cache kind u
    · rfl
    · rfl
  rw [cacheAt_congr ht, hu]

end Sys2Proof.Machine
end

section
/-! SUPPORT. The protocol sequencer (spec/10_state.md R26, R27): what its tables say of each command, what one phase can do,
and how far it gets. -/

namespace Sys2Proof.Machine

open Sys2Proof Sys2Proof.Safety

variable {s t : State} {i : Instr} {op : Byte} {k : Nat} {ph : Phase}

/-! ## The tables of the sequencer -/

/-- R89: the opcode map holds host commands only. -/
theorem isCommand_of_decodeCommand (h : decodeCommand op = some i) : i.isCommand = true := by
  have hall : ∀ row ∈ commandTable, row.2.isCommand = true := by decide
  simp only [decodeCommand, Option.map_eq_some_iff] at h
  obtain ⟨row, hrow, rfl⟩ := h
  exact hall row (List.mem_of_find?_eq_some hrow)

theorem subCount_pos (h : i.isCommand = true) : 0 < subCount i := by
  cases i <;> simp_all [Instr.isCommand, subCount]

/-- R282: the longest command, four writes of five phases each. -/
theorem subCount_mul_phases_le (i : Instr) : subCount i * phasesAhead (busUse i) .check ≤ 20 := by
  cases i <;> simp [subCount, busUse, phasesAhead]

/-- R94: every sub-operation of a command has its `CHECK`. -/
theorem subCheck_isSome (s : State) (h : k < subCount i) : ∃ r, subCheck i k s = some r := by
  cases i <;> simp only [subCount] at h <;> interval_cases k <;> exact ⟨_, rfl⟩

theorem seqLegal_run (h : decodeCommand op = some i) :
    seqLegal (.run op k ph) = true ↔ k < subCount i ∧ phaseLegal (busUse i) ph = true := by
  simp [seqLegal, h]

theorem seqLegal_reserved (h : decodeCommand op = none) :
    seqLegal (.run op k ph) = true ↔ k = 0 ∧ ph = .check := by
  simp [seqLegal, h]

theorem phasesLeft_run (h : decodeCommand op = some i) :
    phasesLeft (.run op k ph) =
      (subCount i - (k + 1)) * phasesAhead (busUse i) .check + phasesAhead (busUse i) ph := by
  simp [phasesLeft, h]

theorem phasesLeft_reserved (h : decodeCommand op = none) : phasesLeft (.run op k ph) = 1 := by
  simp [phasesLeft, h]

theorem phasesAhead_pos (b : BusUse) (ph : Phase) : 0 < phasesAhead b ph := by
  cases b <;> cases ph <;> simp [phasesAhead]

theorem phasesLeft_pos : 0 < phasesLeft (.run op k ph) := by
  cases h : decodeCommand op with
  | none => simp [phasesLeft_reserved h]
  | some i =>
    rw [phasesLeft_run h]
    exact Nat.add_pos_right _ (phasesAhead_pos _ _)

/-! ## Which commands use the bus -/

/-- A `CHECK` that asks for no bus phase. -/
def Reply.offBus (r : Reply Bool) : Prop :=
  ∀ t, r ≠ .done true t

@[simp] theorem offBus_done_false (s : State) : (Reply.done false s).offBus := by simp [Reply.offBus]

@[simp] theorem offBus_andThen {α : Type} (r : Reply α) : (r.andThen fun _ s => .done false s : Reply Bool).offBus := by
  cases r <;> simp [Reply.offBus]

/-- R27 (b): only a command with a bus use asks for a bus phase. -/
theorem busUse_of_subCheck (h : subCheck i k s = some (.done true t)) : busUse i ≠ .none := by
  intro hb
  have off : ∀ r, subCheck i k s = some r → r.offBus := by
    intro r hr
    cases i <;> simp only [busUse, reduceCtorEq] at hb <;> cases k <;>
      simp only [subCheck, Option.some.injEq, reduceCtorEq] at hr <;> subst hr <;> simp
  exact off _ h t rfl

/-! ## What one phase can do -/

theorem phaseStep_sel1 (h : busUse i ≠ .none) (s : State) :
    phaseStep i op k .sel1 s = .next (goto op k .xfer1 (emit .select s)) := by
  cases hb : busUse i <;> simp_all [phaseStep]

theorem phaseStep_xfer1 (h : busUse i ≠ .none) (s : State) :
    phaseStep i op k .xfer1 s = .next (goto op k .dsel1 (transfer s.txn.tx s)) := by
  cases hb : busUse i <;> simp_all [phaseStep]

theorem phaseStep_dsel1_write (h : busUse i = .write) (s : State) :
    phaseStep i op k .dsel1 s = .next (closeBracket op k .done s) := by
  simp [phaseStep, h]

theorem phaseStep_dsel1_read (h : busUse i = .read) (s : State) :
    phaseStep i op k .dsel1 s = .next (closeBracket op k .sel2 s) := by
  simp [phaseStep, h]

theorem phaseStep_sel2 (h : busUse i = .read) (s : State) :
    phaseStep i op k .sel2 s = .next (goto op k .xfer2 (emit .select s)) := by
  simp [phaseStep, h]

theorem phaseStep_xfer2 (h : busUse i = .read) (s : State) :
    phaseStep i op k .xfer2 s = .next (goto op k .dsel2 (transfer Frame.dummy s)) := by
  simp [phaseStep, h]

theorem phaseStep_dsel2 (h : busUse i = .read) (s : State) :
    phaseStep i op k .dsel2 s = .next (closeBracket op k .done s) := by
  simp [phaseStep, h]

theorem phaseStep_done_more (h : k + 1 < subCount i) (s : State) :
    phaseStep i op k .done s = .next (goto op (k + 1) .check s) := by
  simp [phaseStep, h]

theorem phaseStep_done_last (h : subCount i = k + 1) (s : State) :
    phaseStep i op k .done s = .next (succeed (deliver i s)) := by
  simp [phaseStep, h]

theorem legal_firstBracket (h : phaseLegal (busUse i) ph = true) (hph : ph = .sel1 ∨ ph = .xfer1 ∨ ph = .dsel1) :
    busUse i = .write ∨ busUse i = .read := by
  obtain rfl | rfl | rfl := hph <;> cases hb : busUse i <;> simp_all [phaseLegal]

theorem legal_secondBracket (h : phaseLegal (busUse i) ph = true) (hph : ph = .sel2 ∨ ph = .xfer2 ∨ ph = .dsel2) :
    busUse i = .read := by
  obtain rfl | rfl | rfl := hph <;> cases hb : busUse i <;> simp_all [phaseLegal]

/-- R27: the sequencer after one phase of sub-operation `k`: idle, at a later phase of the sub-operation, or, behind
its `DONE`, at the `CHECK` of the next one. -/
def Advanced (i : Instr) (op : Byte) (k : Nat) (ph : Phase) (q : Seq) : Prop :=
  q = .idle ∨
  (∃ ph', q = .run op k ph' ∧ phaseLegal (busUse i) ph' = true ∧
    phasesAhead (busUse i) ph' < phasesAhead (busUse i) ph) ∨
  (q = .run op (k + 1) .check ∧ k + 1 < subCount i)

theorem closeBracket_seq (op : Byte) (k : Nat) (ph : Phase) (s : State) :
    (closeBracket op k ph s).seq = .idle ∨ (closeBracket op k ph s).seq = .run op k ph := by
  unfold closeBracket
  split
  · exact .inr rfl
  · exact .inl rfl

/-- The `CHECK` of a sub-operation the command has. -/
theorem phaseStep_check (hk : k < subCount i) (s : State) :
    ∃ t, phaseStep i op k .check s = .next t ∧ Advanced i op k .check t.seq := by
  obtain ⟨r, hr⟩ := subCheck_isSome s hk
  simp only [phaseStep, hr]
  match r, hr with
  | .err kind u, _ => exact ⟨_, rfl, .inl rfl⟩
  | .done false u, _ =>
    refine ⟨_, rfl, .inr (.inl ⟨.done, rfl, ?_, ?_⟩)⟩ <;> cases busUse i <;> decide
  | .done true u, hr =>
    have hb := busUse_of_subCheck hr
    refine ⟨_, rfl, .inr (.inl ⟨.sel1, rfl, ?_, ?_⟩)⟩ <;> revert hb <;> cases busUse i <;> decide

/-- A phase that may end the command and otherwise goes on to `ph'`. -/
theorem Advanced.later {q : Seq} (ph' : Phase) (hq : q = .idle ∨ q = .run op k ph')
    (hlegal : phaseLegal (busUse i) ph' = true) (hless : phasesAhead (busUse i) ph' < phasesAhead (busUse i) ph) :
    Advanced i op k ph q :=
  hq.imp_right fun hq => .inl ⟨ph', hq, hlegal, hless⟩

/-- R27: a phase that a command can be in gives a next state, further on. -/
theorem phaseStep_advanced (hk : k < subCount i) (hph : phaseLegal (busUse i) ph = true) (s : State) :
    ∃ t, phaseStep i op k ph s = .next t ∧ Advanced i op k ph t.seq := by
  cases ph with
  | check => exact phaseStep_check hk s
  | sel1 =>
    obtain hb | hb := legal_firstBracket hph (by simp) <;>
      exact ⟨_, phaseStep_sel1 (by simp [hb]) s, .later .xfer1 (.inr rfl) (by rw [hb]; rfl) (by rw [hb]; decide)⟩
  | xfer1 =>
    obtain hb | hb := legal_firstBracket hph (by simp) <;>
      exact ⟨_, phaseStep_xfer1 (by simp [hb]) s, .later .dsel1 (.inr rfl) (by rw [hb]; rfl) (by rw [hb]; decide)⟩
  | dsel1 =>
    obtain hb | hb := legal_firstBracket hph (by simp)
    · exact ⟨_, phaseStep_dsel1_write hb s, .later .done (closeBracket_seq ..) (by rw [hb]; rfl) (by rw [hb]; decide)⟩
    · exact ⟨_, phaseStep_dsel1_read hb s, .later .sel2 (closeBracket_seq ..) (by rw [hb]; rfl) (by rw [hb]; decide)⟩
  | sel2 =>
    have hb := legal_secondBracket hph (by simp)
    exact ⟨_, phaseStep_sel2 hb s, .later .xfer2 (.inr rfl) (by rw [hb]; rfl) (by rw [hb]; decide)⟩
  | xfer2 =>
    have hb := legal_secondBracket hph (by simp)
    exact ⟨_, phaseStep_xfer2 hb s, .later .dsel2 (.inr rfl) (by rw [hb]; rfl) (by rw [hb]; decide)⟩
  | dsel2 =>
    have hb := legal_secondBracket hph (by simp)
    exact ⟨_, phaseStep_dsel2 hb s, .later .done (closeBracket_seq ..) (by rw [hb]; rfl) (by rw [hb]; decide)⟩
  | done =>
    by_cases hmore : k + 1 < subCount i
    · exact ⟨_, phaseStep_done_more hmore s, .inr (.inr ⟨rfl, hmore⟩)⟩
    · exact ⟨_, phaseStep_done_last (by omega) s, .inl rfl⟩

/-- What one phase can do is legal again, with fewer phases left. -/
theorem Advanced.progress {q : Seq} (h : Advanced i op k ph q) (hi : decodeCommand op = some i) (hk : k < subCount i) :
    seqLegal q = true ∧ phasesLeft q < phasesLeft (.run op k ph) := by
  obtain rfl | ⟨ph', rfl, hlegal, hless⟩ | ⟨rfl, hmore⟩ := h
  · exact ⟨rfl, phasesLeft_pos⟩
  · rw [seqLegal_run hi, phasesLeft_run hi, phasesLeft_run hi]
    exact ⟨⟨hk, hlegal⟩, Nat.add_lt_add_left hless _⟩
  · rw [seqLegal_run hi, phasesLeft_run hi, phasesLeft_run hi]
    refine ⟨⟨hmore, by cases busUse i <;> rfl⟩, ?_⟩
    have hpos := phasesAhead_pos (busUse i) ph
    obtain ⟨d, hd⟩ : ∃ d, subCount i = d + (k + 2) := ⟨subCount i - (k + 2), by omega⟩
    rw [hd, show d + (k + 2) - (k + 1 + 1) = d by omega, show d + (k + 2) - (k + 1) = d + 1 by omega, Nat.succ_mul]
    omega

theorem step_run (h : s.seq = .run op k ph) : step s = advance s := by
  simp [step, h]

theorem advance_known (h : s.seq = .run op k ph) (hi : decodeCommand op = some i) :
    advance s = phaseStep i op k ph s := by
  simp [advance, h, hi]

/-- R91: a reserved opcode ends in its `CHECK`. -/
theorem advance_reserved (h : s.seq = .run op 0 .check) (hi : decodeCommand op = none) :
    advance s = .next (raise .notImplemented s) := by
  simp [advance, h, hi]

/-- R27, R282: one phase of a command in progress. -/
theorem advance_progress (h : s.seq = .run op k ph) (hl : seqLegal s.seq = true) :
    ∃ t, advance s = .next t ∧ seqLegal t.seq = true ∧ phasesLeft t.seq < phasesLeft s.seq := by
  rw [h] at hl ⊢
  cases hi : decodeCommand op with
  | none =>
    obtain ⟨rfl, rfl⟩ := (seqLegal_reserved hi).mp hl
    exact ⟨_, advance_reserved h hi, rfl, phasesLeft_pos⟩
  | some i =>
    obtain ⟨hk, hph⟩ := (seqLegal_run hi).mp hl
    obtain ⟨t, ht, hadv⟩ := phaseStep_advanced (op := op) hk hph s
    exact ⟨t, (advance_known h hi).trans ht, hadv.progress hi hk⟩

/-- A command is accepted at a legal state, with at most 20 phases left. -/
theorem accepted_legal (op : Byte) : seqLegal (.run op 0 .check) = true ∧ phasesLeft (.run op 0 .check) ≤ 20 := by
  cases hi : decodeCommand op with
  | none => exact ⟨(seqLegal_reserved hi).mpr ⟨rfl, rfl⟩, by simp [phasesLeft_reserved hi]⟩
  | some i =>
    have hpos := subCount_pos (isCommand_of_decodeCommand hi)
    refine ⟨(seqLegal_run hi).mpr ⟨hpos, by cases busUse i <;> rfl⟩, ?_⟩
    rw [phasesLeft_run hi, ← Nat.succ_mul, show (subCount i - (0 + 1)).succ = subCount i by omega]
    exact subCount_mul_phases_le i

/-- In a legal state a step answers a next state, or refuses a frame the block never sends. -/
theorem step_of_legal (hl : seqLegal s.seq = true) : (∃ t, step s = .next t) ∨ step s = .refused .foreignFrame := by
  cases hs : s.seq with
  | run op k ph =>
    obtain ⟨t, ht, -⟩ := advance_progress hs hl
    exact .inl ⟨t, (step_run hs).trans ht⟩
  | idle =>
    cases hh : s.host with
    | nil => exact .inl ⟨s, by simp [step, hs, hh]⟩
    | cons act rest =>
      have hstep : step s = perform act { s with host := rest } := by simp [step, hs, hh]
      rw [hstep]
      exact perform_idle act hs

end Sys2Proof.Machine
end

section
/-! SUPPORT. The phases of one sub-operation, run one by one, against the sub-operation as a whole (spec/10_state.md R27,
spec/41_communicator.md R131 to R141). -/

namespace Sys2Proof.Machine

open Sys2Proof Sys2Proof.Safety

variable {s t : State} {i : Instr} {op : Byte} {k n : Nat} {ph : Phase}

/-! ## `SEQ` and the operations of a phase -/

@[simp] theorem goto_goto (op' : Byte) (k' : Nat) (ph' : Phase) (s : State) :
    goto op k ph (goto op' k' ph' s) = goto op k ph s := rfl

@[simp] theorem goto_emit_goto (op' : Byte) (k' : Nat) (ph' : Phase) (e : Event) (s : State) :
    goto op k ph (emit e (goto op' k' ph' s)) = goto op k ph (emit e s) := rfl

/-- A transfer does not look at `SEQ`, and the phase after it is set whatever `SEQ` was. -/
@[simp] theorem goto_transfer_goto (op' : Byte) (k' : Nat) (ph' : Phase) (f : Frame) (s : State) :
    goto op k ph (transfer f (goto op' k' ph' s)) = goto op k ph (transfer f s) := by
  cases h : s.answers <;> simp [transfer, takeAnswer, h, goto, emit]

/-- A transfer overwrites the transaction in hand, the frame built for it included. -/
theorem bracket_setTx (f g : Frame) (s : State) : bracket f (setTx g s) = bracket f s := by
  cases h : s.answers <;> simp [bracket, transfer, takeAnswer, h, setTx, emit]

@[simp] theorem transfer_seq (f : Frame) (s : State) : (transfer f s).seq = s.seq := by
  cases h : s.answers <;> simp [transfer, takeAnswer, h, emit]

@[simp] theorem transfer_cfg (f : Frame) (s : State) : (transfer f s).cfg = s.cfg := by
  cases h : s.answers <;> simp [transfer, takeAnswer, h, emit]

@[simp] theorem bracket_seq (f : Frame) (s : State) : (bracket f s).seq = s.seq := by
  simp [bracket]

@[simp] theorem bracket_cfg (f : Frame) (s : State) : (bracket f s).cfg = s.cfg := by
  simp [bracket]

theorem owesDeselect_idle (hs : s.seq = .idle) : owesDeselect s.seq = false := by
  rw [hs]
  rfl

/-- R238: where no bracket is open, an error in the sequencer's phase is an error in `IDLE`. -/
theorem raise_goto (kind : ErrKind) (hs : s.seq = .idle) (hph : owesDeselect (.run op k ph) = false) :
    raise kind (goto op k ph s) = raise kind s := by
  simp only [raise, goto_seq, hph, owesDeselect_idle hs]
  rfl

/-- R238: where one is open, its `Deselect` comes first. -/
theorem raise_goto_owed (kind : ErrKind) (hs : s.seq = .idle) (hph : owesDeselect (.run op k ph) = true) :
    raise kind (goto op k ph s) = raise kind (emit .deselect s) := by
  simp only [raise, goto_seq, hph, emit_seq, owesDeselect_idle hs]
  rfl

@[simp] theorem cacheAt_goto (a : Addr) : cacheAt (goto op k ph s) a = cacheAt s a := rfl

@[simp] theorem succeed_goto : succeed (goto op k ph s) = succeed s := rfl

@[simp] theorem succeed_setRes_goto (x : Word) : succeed (setRes x (goto op k ph s)) = succeed (setRes x s) := rfl

theorem velocityWord_goto (rpm : Rat) (s : State) :
    velocityWord rpm (goto op k ph s) = ((velocityWord rpm s).1, goto op k ph (velocityWord rpm s).2) := by
  by_cases h : vmaxOf s.cfg.toConfigData rpm < 0 ∨ 2 ^ 32 ≤ vmaxOf s.cfg.toConfigData rpm
  · rw [velocityWord_free s h, velocityWord_free (goto op k ph s) h]
    rfl
  · obtain ⟨h0, h1⟩ := not_or.mp h
    rw [velocityWord_fits s (not_lt.mp h0) (not_le.mp h1),
      velocityWord_fits (goto op k ph s) (not_lt.mp h0) (not_le.mp h1)]
    rfl

theorem speedQuad_goto (m : Nat) (s : State) :
    speedQuad m (goto op k ph s) = ((speedQuad m s).1, goto op k ph (speedQuad m s).2) := by
  by_cases h : 2 ^ 63 ≤ rpmImage s.cfg.toConfigData m
  · rw [speedQuad_free s h, speedQuad_free (goto op k ph s) h]
    rfl
  · rw [speedQuad_fits s (not_le.mp h), speedQuad_fits (goto op k ph s) (not_le.mp h)]
    rfl

@[simp] theorem succeed_deliverVelocity_goto :
    succeed (deliverVelocity (goto op k ph s)) = succeed (deliverVelocity s) := by
  simp only [deliverVelocity, goto_q0, velocityWord_goto, succeed_setRes_goto]

@[simp] theorem succeed_deliverSpeed_goto (m : Nat) :
    succeed (deliverSpeed m (goto op k ph s)) = succeed (deliverSpeed m s) := by
  simp only [deliverSpeed, speedQuad_goto]
  rfl

/-! ## Running phases -/

theorem runToIdle_idle (n : Nat) (h : s.seq = .idle) : runToIdle n s = .next s := by
  cases n <;> simp [runToIdle, h]

theorem runToIdle_advance (h : advance (goto op k ph s) = .next t) :
    runToIdle (n + 1) (goto op k ph s) = runToIdle n t := by
  simp [runToIdle, h]

theorem runToIdle_phase (hi : decodeCommand op = some i) (h : phaseStep i op k ph (goto op k ph s) = .next t) :
    runToIdle (n + 1) (goto op k ph s) = runToIdle n t :=
  runToIdle_advance ((advance_known rfl hi).trans h)

/-- R27 with R191: what follows a sub-operation: the rest of the command, or its end with the sub-operation's error. -/
def Reply.thenRun {α : Type} (r : Reply α) (rest : α → State → Host.Outcome State Fault Refusal) :
    Host.Outcome State Fault Refusal :=
  match r with
  | .done x t => rest x t
  | .err kind t => .next (raise kind t)

@[simp] theorem thenRun_done {α : Type} (x : α) (t : State) (rest : α → State → Host.Outcome State Fault Refusal) :
    (Reply.done x t).thenRun rest = rest x t := rfl

@[simp] theorem thenRun_err {α : Type} (kind : ErrKind) (t : State)
    (rest : α → State → Host.Outcome State Fault Refusal) :
    (Reply.err kind t).thenRun rest = .next (raise kind t) := rfl

theorem thenRun_congr {α : Type} {r : Reply α} {f g : α → State → Host.Outcome State Fault Refusal}
    (h : ∀ x t, r = .done x t → f x t = g x t) : r.thenRun f = r.thenRun g := by
  cases r with
  | done x t => exact h x t rfl
  | err kind t => rfl

theorem andThen_andThen {α β γ : Type} (r : Reply α) (f : α → State → Reply β) (g : β → State → Reply γ) :
    (r.andThen f).andThen g = r.andThen fun x t => (f x t).andThen g := by
  cases r <;> rfl

/-- R27 (c): the end of a command whose result is written last. -/
theorem thenRun_finish {α : Type} (r : Reply α) (f : α → State → State) :
    (r.thenRun fun x t => .next (succeed (f x t))) = .next (finish (r.andThen fun x t => .done () (f x t))) := by
  cases r <;> rfl

/-- R27 (c): the last `DONE` ends the command; its result is written first. -/
theorem runToIdle_last (hi : decodeCommand op = some i) (hk : subCount i = k + 1) :
    runToIdle (n + 1) (goto op k .done s) = .next (succeed (deliver i (goto op k .done s))) := by
  rw [runToIdle_phase hi (phaseStep_done_last hk _), runToIdle_idle n rfl]

theorem runToIdle_more (hi : decodeCommand op = some i) (hk : k + 1 < subCount i) :
    runToIdle (n + 1) (goto op k .done s) = runToIdle n (goto op (k + 1) .check s) := by
  rw [runToIdle_phase hi (phaseStep_done_more hk _), goto_goto]

/-! ## One `CHECK` -/

theorem runToIdle_check_bus (hi : decodeCommand op = some i)
    (h : subCheck i k (goto op k .check s) = some (.done true t)) :
    runToIdle (n + 1) (goto op k .check s) = runToIdle n (goto op k .sel1 t) :=
  runToIdle_phase hi (by simp [phaseStep, h])

theorem runToIdle_check_done (hi : decodeCommand op = some i)
    (h : subCheck i k (goto op k .check s) = some (.done false t)) :
    runToIdle (n + 1) (goto op k .check s) = runToIdle n (goto op k .done t) :=
  runToIdle_phase hi (by simp [phaseStep, h])

theorem runToIdle_check_err (hi : decodeCommand op = some i) (ht : t.seq = .idle) {kind : ErrKind}
    (h : subCheck i k (goto op k .check s) = some (.err kind (goto op k .check t))) :
    runToIdle (n + 1) (goto op k .check s) = .next (raise kind t) := by
  rw [runToIdle_phase hi (t := raise kind (goto op k .check t)) (by simp [phaseStep, h]), runToIdle_idle n rfl,
    raise_goto kind ht rfl]

/-! ## One bracket -/

/-- R238: the phase after a transfer, as the end of the bracket. -/
theorem runToIdle_closeBracket (hs : s.seq = .idle) (hph : owesDeselect (.run op k ph) = true) (ph' : Phase) :
    runToIdle n (closeBracket op k ph' (goto op k ph s)) =
      if s.txn.ok then runToIdle n (goto op k ph' (emit .deselect s))
      else .next (raise .transferFailed (emit .deselect s)) := by
  unfold closeBracket
  rw [goto_txn, goto_emit_goto, raise_goto_owed _ hs hph, ← runToIdle_idle n (raise_seq .transferFailed _)]
  exact apply_ite _ _ _ _

/-- R131: the first bracket of a sub-operation, phase by phase, with the frame its `CHECK` built. -/
theorem runToIdle_firstBracket (hi : decodeCommand op = some i) (hb : busUse i ≠ .none) (hs : s.seq = .idle) (f : Frame)
    {ph' : Phase} (hd : ∀ u, phaseStep i op k .dsel1 u = .next (closeBracket op k ph' u)) :
    runToIdle (n + 3) (goto op k .sel1 (setTx f s)) =
      if (bracket f s).txn.ok then runToIdle n (goto op k ph' (bracket f s))
      else .next (raise .transferFailed (bracket f s)) := by
  rw [runToIdle_phase hi (phaseStep_sel1 hb _), goto_emit_goto, runToIdle_phase hi (phaseStep_xfer1 hb _),
    goto_transfer_goto, runToIdle_phase hi (hd _), runToIdle_closeBracket (by simpa using hs) rfl,
    ← bracket_setTx f f s]
  rfl

/-- R131, R134: the second bracket of a read, phase by phase. -/
theorem runToIdle_secondBracket (hi : decodeCommand op = some i) (hb : busUse i = .read) (hs : s.seq = .idle) :
    runToIdle (n + 3) (goto op k .sel2 s) =
      if (bracket Frame.dummy s).txn.ok then runToIdle n (goto op k .done (bracket Frame.dummy s))
      else .next (raise .transferFailed (bracket Frame.dummy s)) := by
  rw [runToIdle_phase hi (phaseStep_sel2 hb _), goto_emit_goto, runToIdle_phase hi (phaseStep_xfer2 hb _),
    goto_transfer_goto, runToIdle_phase hi (phaseStep_dsel2 hb _),
    runToIdle_closeBracket (by simpa using hs) rfl]
  rfl

/-! ## The bus primitives -/

/-- R133, phase by phase. -/
theorem runToIdle_memWrite (hi : decodeCommand op = some i) (hb : busUse i = .write) (hs : s.seq = .idle) (r : Addr)
    (x : Word) :
    runToIdle (n + 3) (goto op k .sel1 (setTx (Frame.write r x) s)) =
      (memWrite r x s).thenRun fun _ t => runToIdle n (goto op k .done t) := by
  rw [runToIdle_firstBracket hi (by simp [hb]) hs _ (phaseStep_dsel1_write hb)]
  simp only [memWrite]
  split <;> rfl

/-- R134, phase by phase. -/
theorem runToIdle_memRead (hi : decodeCommand op = some i) (hb : busUse i = .read) (hs : s.seq = .idle) (r : Addr) :
    runToIdle (n + 6) (goto op k .sel1 (setTx (Frame.readReq r) s)) =
      (memRead r s).thenRun fun _ t => runToIdle n (goto op k .done t) := by
  rw [runToIdle_firstBracket (n := n + 3) hi (by simp [hb]) hs _ (phaseStep_dsel1_read hb),
    runToIdle_secondBracket hi hb (by simpa using hs)]
  simp only [memRead]
  split
  · split <;> rfl
  · rfl

/-! ## A `write` sub-operation -/

/-- The `CHECK` of a write in phase `q` and the write as a whole, from `s`: both end with one error, or both come to
one word for one register, to be sent from one state. -/
def WriteChecked (q : State → State) (s : State) (c : Reply Bool) (r : Reply Unit) : Prop :=
  ∃ t, t.seq = s.seq ∧
    ((∃ kind, c = .err kind (q t) ∧ r = .err kind t) ∨
     ∃ a x, c = .done true (setTx (Frame.write a x) (q t)) ∧ r = memWrite a x t)

/-- R135. -/
theorem checkWrite_checked (op : Byte) (k : Nat) (ph : Phase) (a v : Word) (s : State) :
    WriteChecked (goto op k ph) s (checkWrite a v (goto op k ph s)) (writeReg a v s) := by
  cases h : findRegister s.cfg.toConfigData a with
  | none =>
    rw [checkWrite, writeReg, acceptWrite_unknown h, acceptWrite_unknown (s := goto op k ph s) h]
    exact ⟨s, rfl, .inl ⟨_, rfl, rfl⟩⟩
  | some d =>
    rw [checkWrite, writeReg, acceptWrite_found h, acceptWrite_found (s := goto op k ph s) h]
    cases d.writable with
    | false => exact ⟨s, rfl, .inl ⟨_, rfl, rfl⟩⟩
    | true => exact ⟨setCache d.address v s, rfl, .inr ⟨_, _, rfl, rfl⟩⟩

/-- R137. -/
theorem checkFieldWrite_checked (op : Byte) (k : Nat) (ph : Phase) (f v : Word) (s : State) :
    WriteChecked (goto op k ph) s (checkFieldWrite f v (goto op k ph s)) (writeField f v s) := by
  cases h : findField s.cfg.toConfigData f with
  | none =>
    refine ⟨s, rfl, .inl ⟨.invalidParameter, ?_, ?_⟩⟩
    · simp [checkFieldWrite, acceptFieldWrite, field_none (s := goto op k ph s) h]
    · simp [writeField, acceptFieldWrite, field_none h]
  | some F =>
    obtain ⟨-, d, hd⟩ := findField_some s.cfg h
    have hl : findRegister s.cfg.toConfigData (fixedAddr F.reg) = some d := by simpa using hd
    simp only [checkFieldWrite, writeField, acceptFieldWrite, field_some h, field_some (s := goto op k ph s) h,
      andThen_done, lookup_some hl, lookup_some (s := goto op k ph s) hl]
    cases d.writable with
    | false => exact ⟨s, rfl, .inl ⟨_, rfl, rfl⟩⟩
    | true =>
      exact ⟨setCache F.reg (fieldCompose F (cacheAt s F.reg) v) s, rfl,
        .inr ⟨F.reg, fieldCompose F (cacheAt s F.reg) v, rfl, rfl⟩⟩

/-- R193, R195: a free word is drawn first where the speed is out of range. -/
theorem checkSpeed_checked (op : Byte) (k : Nat) (ph : Phase) (role : RegisterRoles → Addr) (rpm : Rat) (s : State) :
    WriteChecked (goto op k ph) s (checkSpeed (fixedAddr (role s.cfg.regs)) rpm (goto op k ph s))
      (writeSpeed role rpm s) := by
  have hran := velocityWord_ran rpm s
  obtain ⟨t, ht, h⟩ :=
    checkWrite_checked op k ph (fixedAddr (role s.cfg.regs)) (velocityWord rpm s).1 (velocityWord rpm s).2
  simp only [checkSpeed, writeSpeed, writeRole, velocityWord_goto, hran.cfg]
  exact ⟨t, ht.trans hran.seq, h⟩

theorem memWrite_done_seq {a : Addr} {x : Word} {y : Unit} {u : State} (h : memWrite a x t = .done y u) :
    u.seq = t.seq := by
  simp only [memWrite] at h
  split at h
  · cases h
    exact bracket_seq _ t
  · cases h

section
variable {c : Reply Bool} {r : Reply Unit} (hi : decodeCommand op = some i) (hb : busUse i = .write) (hs : s.seq = .idle)
  (hc : subCheck i k (goto op k .check s) = some c) (h : WriteChecked (goto op k .check) s c r)
include hi hb hs hc h

/-- R27 (b): the phases of a write sub-operation, against the sub-operation as a whole. -/
theorem runToIdle_write :
    runToIdle (n + 5) (goto op k .check s) = r.thenRun fun _ t => runToIdle (n + 1) (goto op k .done t) := by
  obtain ⟨t, ht, ⟨kind, rfl, rfl⟩ | ⟨a, x, rfl, rfl⟩⟩ := h
  · exact runToIdle_check_err hi (ht.trans hs) hc
  · rw [runToIdle_check_bus hi hc]
    exact runToIdle_memWrite hi hb (ht.trans hs) a x

/-- The last write of a command. -/
theorem runToIdle_write_last (hk : subCount i = k + 1) (hd : ∀ u, deliver i u = u) :
    runToIdle (n + 5) (goto op k .check s) = .next (finish r) := by
  rw [runToIdle_write hi hb hs hc h]
  cases r with
  | done x t => rw [thenRun_done, runToIdle_last hi hk, hd, succeed_goto]; rfl
  | err kind t => rfl

/-- R191: a write of a composite command, and the rest of its sequence. -/
theorem runToIdle_write_next (hk : k + 1 < subCount i) {rest : State → Reply Unit}
    (hrest : ∀ t, t.seq = .idle → runToIdle n (goto op (k + 1) .check t) = .next (finish (rest t))) :
    runToIdle (n + 5) (goto op k .check s) = .next (finish (r.next rest)) := by
  rw [runToIdle_write hi hb hs hc h]
  obtain ⟨t, ht, ⟨kind, -, rfl⟩ | ⟨a, x, -, rfl⟩⟩ := h
  · rfl
  · cases hr : memWrite a x t with
    | done y u =>
      rw [thenRun_done, runToIdle_more hi hk, next_done]
      exact hrest u ((memWrite_done_seq hr).trans (ht.trans hs))
    | err kind u => rfl

end

/-! ## A `read` sub-operation -/

/-- R139: the word read is the one the state holds when the sub-operation is done. -/
theorem readWord_of_readReg {a w : Word} (h : readReg a s = .done w t) : readWord a t = w := by
  cases hd : findRegister s.cfg.toConfigData a with
  | none => simp [readReg, lookup_none hd] at h
  | some d =>
    cases hr : d.hwRead with
    | false =>
      rw [readReg_cached hd hr] at h
      cases h
      simp [readWord, hd, hr]
    | true =>
      rw [readReg_hardware hd hr] at h
      simp only [memRead] at h
      split at h
      · split at h
        · cases h
          simp [readWord, hd, hr]
        · cases h
      · cases h

@[simp] theorem readWord_goto (a : Word) : readWord a (goto op k ph s) = readWord a s := rfl

theorem readReg_ran {a w : Word} (h : readReg a s = .done w t) : ∃ sent wrote, Ran s t sent wrote := by
  obtain ⟨sent, wrote, hran, -⟩ :=
    readReg_ended (P := fun _ => True) (E := fun _ => True) a trivial trivial s
  rw [h] at hran
  exact ⟨sent, wrote, hran⟩

/-- R27 (b): the phases of a command that reads, against the command as a whole, for the way `f` its result is made of
the word read. -/
theorem runToIdle_read (hi : decodeCommand op = some i) (hb : busUse i = .read) (hk : subCount i = 1)
    (hs : s.seq = .idle) {a : Word} (hc : subCheck i 0 (goto op 0 .check s) = some (checkRead a (goto op 0 .check s)))
    {f : Word → State → State}
    (hd : ∀ t, t.a = s.a → t.cfg = s.cfg → succeed (deliver i (goto op 0 .done t)) = succeed (f (readWord a t) t)) :
    runToIdle (n + 8) (goto op 0 .check s) = .next (finish ((readReg a s).andThen fun w t => .done () (f w t))) := by
  have hrun : runToIdle (n + 8) (goto op 0 .check s) =
      (readReg a s).thenRun fun _ t => .next (succeed (deliver i (goto op 0 .done t))) := by
    cases h : findRegister s.cfg.toConfigData a with
    | none =>
      simp only [checkRead, lookup_none (s := goto op 0 .check s) h, andThen_err] at hc
      rw [runToIdle_check_err hi hs hc, readReg, lookup_none h]
      rfl
    | some d =>
      simp only [checkRead, lookup_some (s := goto op 0 .check s) h, andThen_done] at hc
      cases hr : d.hwRead with
      | false =>
        rw [hr] at hc
        rw [readReg_cached h hr, runToIdle_check_done hi hc, goto_goto, runToIdle_last hi hk]
        rfl
      | true =>
        rw [hr] at hc
        rw [readReg_hardware h hr, runToIdle_check_bus hi hc]
        refine (runToIdle_memRead (n := n + 1) hi hb hs d.address).trans (thenRun_congr fun w t _ => ?_)
        exact runToIdle_last hi hk
  rw [hrun, ← thenRun_finish]
  refine thenRun_congr fun w t h => ?_
  obtain ⟨sent, wrote, hran⟩ := readReg_ran h
  rw [hd t hran.a hran.cfg, readWord_of_readReg h]

/-! ## A command without bus use -/

theorem lookup_goto (a : Word) (s : State) : lookup a (goto op k ph s) = Reply.mapState (goto op k ph) (lookup a s) := by
  simp only [lookup, goto_cfg]
  cases findRegister s.cfg.toConfigData a <;> rfl

theorem field_goto (f : Word) (s : State) : field f (goto op k ph s) = Reply.mapState (goto op k ph) (field f s) := by
  simp only [field, goto_cfg]
  cases findField s.cfg.toConfigData f <;> rfl

theorem shadow_goto (a : Word) (s : State) : shadow a (goto op k ph s) = Reply.mapState (goto op k ph) (shadow a s) := by
  simp only [shadow]
  cases addrOf a <;> rfl

theorem lookup_state (a : Word) (s : State) : (lookup a s).state = s := by
  simp only [lookup]
  cases findRegister s.cfg.toConfigData a <;> rfl

theorem field_state (f : Word) (s : State) : (field f s).state = s := by
  simp only [field]
  cases findField s.cfg.toConfigData f <;> rfl

theorem shadow_state (a : Word) (s : State) : (shadow a s).state = s := by
  simp only [shadow]
  cases addrOf a <;> rfl

/-- What a lookup found is found again when the result is made of it (R115 to R117). -/
theorem findField_of_field {f : Word} {F : FieldDescriptor} {t : State} (h : field f s = .done F t) :
    findField s.cfg.toConfigData f = some F := by
  cases hF : findField s.cfg.toConfigData f with
  | none => simp [field_none hF] at h
  | some G =>
    rw [field_some hF] at h
    cases h
    rfl

theorem findRegister_of_lookup {a : Word} {d : RegisterDescriptor} {t : State} (h : lookup a s = .done d t) :
    findRegister s.cfg.toConfigData a = some d := by
  cases hd : findRegister s.cfg.toConfigData a with
  | none => simp [lookup_none hd] at h
  | some e =>
    rw [lookup_some hd] at h
    cases h
    rfl

theorem addrOf_of_shadow {a w : Word} {t : State} (h : shadow a s = .done w t) :
    ∃ r, addrOf a = some r ∧ cacheAt s r = w := by
  cases hr : addrOf a with
  | none => simp [shadow, hr] at h
  | some r =>
    simp only [shadow, hr, Reply.done.injEq] at h
    exact ⟨r, rfl, h.1⟩

/-- R27: the phases of a command without bus use, against the command as a whole, for its lookup `r` and the way `f`
its result is made of what `r` finds. -/
theorem runToIdle_local (hi : decodeCommand op = some i) (hk : subCount i = 1) (hs : s.seq = .idle) {α : Type}
    {r : Reply α} (hr : r.state = s)
    (hc : subCheck i 0 (goto op 0 .check s) =
      some ((Reply.mapState (goto op 0 .check) r).andThen fun _ t => .done false t))
    {f : α → State → State} (hd : ∀ x, r = .done x s → succeed (deliver i (goto op 0 .done s)) = succeed (f x s)) :
    runToIdle (n + 2) (goto op 0 .check s) = .next (finish (r.andThen fun x t => .done () (f x t))) := by
  cases r with
  | done x t =>
    obtain rfl : t = s := hr
    rw [runToIdle_check_done (n := n + 1) hi hc, goto_goto, runToIdle_last hi hk, hd x rfl]
    rfl
  | err kind t =>
    obtain rfl : t = s := hr
    exact runToIdle_check_err hi hs hc

end Sys2Proof.Machine
end

section
/-! PROOFS. Each command's phases, run one by one, against the command as a whole (spec/10_state.md R27), and progress of the
sequencer. -/

namespace Sys2Proof.Machine

open Sys2Proof Sys2Proof.Safety

variable {s : State} {i : Instr} {op : Byte}

/-- R27: the phases of the commands that only look something up or convert a quantity. -/
theorem runToIdle_offBus (hi : decodeCommand op = some i) (hb : busUse i = .none) (hs : s.seq = .idle) :
    runToIdle 20 (goto op 0 .check s) = exec i s := by
  have hcmd := isCommand_of_decodeCommand hi
  cases i with
  | lookup =>
    simp only [exec, execLookup, command_idle _ hs]
    exact runToIdle_local (n := 18) hi rfl hs (lookup_state _ _) (by simp [subCheck, lookup_goto])
      fun d h => by simp [deliver, findRegister_of_lookup h]
  | fieldExtract =>
    simp only [exec, execFieldExtract, command_idle _ hs]
    exact runToIdle_local (n := 18) hi rfl hs (field_state _ _) (by simp [subCheck, field_goto])
      fun F h => by simp [deliver, findField_of_field h]
  | fieldCompose =>
    simp only [exec, execFieldCompose, command_idle _ hs]
    exact runToIdle_local (n := 18) hi rfl hs (field_state _ _) (by simp [subCheck, field_goto])
      fun F h => by simp [deliver, findField_of_field h]
  | getShadow =>
    simp only [exec, execGetShadow, command_idle _ hs]
    exact runToIdle_local (n := 18) hi rfl hs (shadow_state _ _) (by simp [subCheck, shadow_goto])
      fun x h => by
        obtain ⟨a, ha, hx⟩ := addrOf_of_shadow h
        simp [deliver, ha, ← hx]
  | rpmToVmax =>
    simp only [exec, execRpmToVmax, command_idle _ hs]
    exact runToIdle_local (n := 18) (r := .done () s) hi rfl hs rfl rfl fun _ _ => succeed_deliverVelocity_goto
  | vmaxToRpm =>
    simp only [exec, execVmaxToRpm, command_idle _ hs]
    exact runToIdle_local (n := 18) (r := .done () s) hi rfl hs rfl rfl fun _ _ => succeed_deliverSpeed_goto _
  | currentToCs =>
    simp only [exec, execCurrentToCs, command_idle _ hs]
    exact runToIdle_local (n := 18) (r := .done () s) hi rfl hs rfl rfl fun _ _ => succeed_setRes_goto _
  | accelToRegister =>
    simp only [exec, execAccelToRegister, command_idle _ hs]
    exact runToIdle_local (n := 18) (r := .done () s) hi rfl hs rfl rfl fun _ _ => succeed_setRes_goto _
  | durationToTzerowait =>
    simp only [exec, execDurationToTzerowait, command_idle _ hs]
    exact runToIdle_local (n := 18) (r := .done () s) hi rfl hs rfl rfl fun _ _ => succeed_setRes_goto _
  | dgramWrite a v => simp [Instr.isCommand] at hcmd
  | dgramReadreq a => simp [Instr.isCommand] at hcmd
  | dgramDummy => simp [Instr.isCommand] at hcmd
  | _ => simp [busUse] at hb

/-- R27: the phases of the commands that read a register. -/
theorem runToIdle_reads (hi : decodeCommand op = some i) (hb : busUse i = .read) (hs : s.seq = .idle) :
    runToIdle 20 (goto op 0 .check s) = exec i s := by
  cases i with
  | read =>
    simp only [exec, execRead, command_idle _ hs]
    exact runToIdle_read (n := 12) hi rfl rfl hs rfl fun t ha _ => by simp [deliver, ha]
  | readField =>
    simp only [exec, execReadField, command_idle _ hs]
    cases hF : findField s.cfg.toConfigData s.a with
    | none =>
      have hc : subCheck .readField 0 (goto op 0 .check s) = some (.err .invalidParameter (goto op 0 .check s)) := by
        simp [subCheck, field_none (s := goto op 0 .check s) hF]
      rw [runToIdle_check_err (n := 19) hi hs hc, readField, field_none hF]
      rfl
    | some F =>
      rw [readField, field_some hF, andThen_done, andThen_andThen]
      exact runToIdle_read (n := 12) hi rfl rfl hs (by simp [subCheck, field_some (s := goto op 0 .check s) hF])
        fun t ha hcfg => by simp [deliver, ha, hcfg, hF]
  | getActualMotorPosition =>
    simp only [exec, execGetActualMotorPosition, command_idle _ hs]
    exact runToIdle_read (n := 12) hi rfl rfl hs rfl fun t _ hcfg => by simp [deliver, hcfg]
  | getActualVelocity =>
    simp only [exec, execGetActualVelocity, command_idle _ hs]
    exact runToIdle_read (n := 12) hi rfl rfl hs rfl fun t _ hcfg => by simp [deliver, hcfg]
  | _ => simp [busUse] at hb

/-- R27, R191: the phases of the commands that write, one sub-operation of five phases for each write. -/
theorem runToIdle_writes (hi : decodeCommand op = some i) (hb : busUse i = .write) (hs : s.seq = .idle) :
    runToIdle 20 (goto op 0 .check s) = exec i s := by
  cases i with
  | write =>
    simp only [exec, execWrite, command_idle _ hs]
    exact runToIdle_write_last (n := 15) hi rfl hs rfl (checkWrite_checked ..) rfl fun _ => rfl
  | writeField =>
    simp only [exec, execWriteField, command_idle _ hs]
    exact runToIdle_write_last (n := 15) hi rfl hs rfl (checkFieldWrite_checked ..) rfl fun _ => rfl
  | stop =>
    simp only [exec, execStop, command_idle _ hs]
    exact runToIdle_write_last (n := 15) hi rfl hs rfl (checkWrite_checked ..) rfl fun _ => rfl
  | rotate =>
    simp only [exec, execRotate, command_idle _ hs]
    refine runToIdle_write_next (n := 15) hi rfl hs rfl (checkWrite_checked ..) (by decide) fun t ht => ?_
    exact runToIdle_write_last (n := 10) hi rfl ht rfl (checkSpeed_checked ..) rfl fun _ => rfl
  | moveTo =>
    simp only [exec, execMoveTo, command_idle _ hs]
    refine runToIdle_write_next (n := 15) hi rfl hs rfl (checkWrite_checked ..) (by decide) fun t ht => ?_
    refine runToIdle_write_next (n := 10) hi rfl ht rfl (checkSpeed_checked ..) (by decide) fun u hu => ?_
    exact runToIdle_write_last (n := 5) hi rfl hu rfl (checkWrite_checked ..) rfl fun _ => rfl
  | setGlobalScaling =>
    simp only [exec, execSetGlobalScaling, command_idle _ hs]
    exact runToIdle_write_last (n := 15) hi rfl hs rfl (checkWrite_checked ..) rfl fun _ => rfl
  | setLinearAcceleration =>
    simp only [exec, execSetLinearAcceleration, command_idle _ hs]
    refine runToIdle_write_next (n := 15) hi rfl hs rfl (checkWrite_checked ..) (by decide) fun t ht => ?_
    refine runToIdle_write_next (n := 10) hi rfl ht rfl (checkWrite_checked ..) (by decide) fun u hu => ?_
    refine runToIdle_write_next (n := 5) hi rfl hu rfl (checkWrite_checked ..) (by decide) fun w hw => ?_
    exact runToIdle_write_last (n := 0) hi rfl hw rfl (checkWrite_checked ..) rfl fun _ => rfl
  | setAdvancedAcceleration =>
    simp only [exec, execSetAdvancedAcceleration, command_idle _ hs]
    refine runToIdle_write_next (n := 15) hi rfl hs rfl (checkWrite_checked ..) (by decide) fun t ht => ?_
    refine runToIdle_write_next (n := 10) hi rfl ht rfl (checkWrite_checked ..) (by decide) fun u hu => ?_
    refine runToIdle_write_next (n := 5) hi rfl hu rfl (checkWrite_checked ..) (by decide) fun w hw => ?_
    exact runToIdle_write_last (n := 0) hi rfl hw rfl (checkWrite_checked ..) rfl fun _ => rfl
  | setIrun =>
    simp only [exec, execSetIrun, command_idle _ hs]
    exact runToIdle_write_last (n := 15) hi rfl hs rfl (checkFieldWrite_checked ..) rfl fun _ => rfl
  | setIhold =>
    simp only [exec, execSetIhold, command_idle _ hs]
    refine runToIdle_write_next (n := 15) hi rfl hs rfl (checkFieldWrite_checked ..) (by decide) fun t ht => ?_
    exact runToIdle_write_last (n := 10) hi rfl ht rfl (checkFieldWrite_checked ..) rfl fun _ => rfl
  | setStealthChop =>
    simp only [exec, execSetStealthChop, command_idle _ hs]
    exact runToIdle_write_last (n := 15) hi rfl hs rfl (checkFieldWrite_checked ..) rfl fun _ => rfl
  | _ => simp [busUse] at hb

/-- R27: the phases of every command, run one by one, do what the command does as a whole. -/
theorem runToIdle_command (hi : decodeCommand op = some i) (hs : s.seq = .idle) :
    runToIdle 20 (goto op 0 .check s) = exec i s := by
  cases hb : busUse i with
  | none => exact runToIdle_offBus hi hb hs
  | read => exact runToIdle_reads hi hb hs
  | write => exact runToIdle_writes hi hb hs

/-- R91: a reserved opcode's one phase ends as the reserved command does. -/
theorem runToIdle_reserved (hi : decodeCommand op = none) (hs : s.seq = .idle) :
    runToIdle 20 (goto op 0 .check s) = .next (raise .notImplemented s) := by
  rw [runToIdle_advance (n := 19) (advance_reserved rfl hi), runToIdle_idle _ rfl, raise_goto _ hs rfl]

/-- Settles O56, by what one phase can do (`Advanced`) and by what the host's actions answer in `IDLE`. -/
theorem phasesProgress : Obligations.PhasesProgress := by
  refine ⟨fun s hl hne => ?_, accepted_legal, fun s hinv => ?_⟩
  · cases hs : s.seq with
    | idle => exact absurd hs hne
    | run op k ph =>
      rw [step_run hs, ← hs]
      exact advance_progress hs hl
  · obtain ⟨t, ht⟩ | href := step_of_legal hinv.seqOk
    · exact ⟨fun r => by simp [ht], fun r => by simp [ht]⟩
    · exact ⟨fun r => by simp [href], fun r hr => by simpa [href] using hr.symm⟩

/-- Settles O55: accepting is the host's action `start`; then command by command, and for a reserved opcode. -/
theorem phasesRunWholeCommand : Obligations.PhasesRunWholeCommand := by
  refine ⟨fun s rest hs hh => ?_, fun s hs => ?_⟩
  · simp [step, hs, hh, perform, whenIdle, accept, goto]
  · change runToIdle 20 (goto s.op 0 .check s) = issue s
    cases hi : decodeCommand s.op with
    | none => rw [runToIdle_reserved hi hs, issue_reserved hi, command_idle _ hs]; rfl
    | some i => rw [runToIdle_command hi hs, issue_known hi]

end Sys2Proof.Machine
end

section
/-! SUPPORT. The numbers behind a frame's bytes (spec/20_memory.md R53, spec/30_encoding.md R80), and `WRITE` and the cached
`READ` at a known register (spec/20_memory.md R61, R62). -/

namespace Sys2Proof

/-- R53: the data bytes as digits of the word in base 256. -/
theorem ofWord_toNat (b0 : Byte) (v : Word) :
    (Frame.ofWord b0 v).b1.toNat = v.toNat / 2 ^ 24 ∧ (Frame.ofWord b0 v).b2.toNat = v.toNat / 2 ^ 16 % 2 ^ 8 ∧
      (Frame.ofWord b0 v).b3.toNat = v.toNat / 2 ^ 8 % 2 ^ 8 ∧ (Frame.ofWord b0 v).b4.toNat = v.toNat % 2 ^ 8 := by
  have hv := v.isLt
  simp only [Frame.ofWord, BitVec.extractLsb'_toNat, Nat.shiftRight_eq_div_pow, Nat.pow_zero, Nat.div_one, and_true]
  exact Nat.mod_eq_of_lt (by omega)

/-- R53: a frame's word from its bytes: the frame is its own word put back, so the bytes are the word's digits. -/
theorem word_toNat (f : Frame) :
    f.word.toNat = f.b1.toNat * 2 ^ 24 + f.b2.toNat * 2 ^ 16 + f.b3.toNat * 2 ^ 8 + f.b4.toNat := by
  obtain ⟨h1, h2, h3, h4⟩ := ofWord_toNat f.b0 f.word
  rw [ofWord_word] at h1 h2 h3 h4
  omega

/-- A byte is its top bit above its seven low bits. -/
theorem toNat_eq_msb_add_low (b : Byte) : b.toNat = (if b.msb then 128 else 0) + (b.setWidth 7).toNat := by
  have hb := b.isLt
  rw [BitVec.msb_eq_decide, BitVec.toNat_setWidth]
  simp only [decide_eq_true_eq]
  split <;> omega

/-- R80: the address byte as a number. -/
theorem addressByte_toNat (isWrite : Bool) (a : Addr) :
    (addressByte isWrite a).toNat = (if isWrite then 128 else 0) + a.toNat := by
  cases isWrite with
  | true => rw [toNat_eq_msb_add_low, (addressByte_write a).1, (addressByte_write a).2]
  | false => rw [toNat_eq_msb_add_low, (addressByte_read a).1, (addressByte_read a).2]

end Sys2Proof

namespace Sys2Proof.Machine

open Sys2Proof Sys2Proof.Safety

variable {s : State} {d : RegisterDescriptor}

/-- R110: the operand at which a descriptor is found is the descriptor's own address. -/
theorem eq_fixedAddr_of_found {c : ConfigData} {a : Word} (h : findRegister c a = some d) : a = fixedAddr d.address := by
  obtain ⟨-, hd, ha⟩ := findRegister_some h
  rw [hd]
  apply BitVec.eq_of_toNat_eq
  simp only [fixedAddr, BitVec.toNat_setWidth]
  omega

/-- R30: a writable register that is not volatile is read from the cache. -/
theorem hwRead_eq_false (hw : d.writable = true) (hv : d.volatile = false) : d.hwRead = false := by
  cases hd : d.access <;> simp_all [RegisterDescriptor.writable, RegisterDescriptor.hwRead]

/-- R135 at a known address, whatever the transport answers. -/
theorem writeReg_found {a x : Word} (h : findRegister s.cfg.toConfigData a = some d) :
    writeReg a x s = attempt ⟨d.address, x, 0⟩ s := by
  rw [eq_fixedAddr_of_found h]
  exact writeReg_attempt x (findRegister_some h).1

/-- R61, R233 (c): the cache entry a write to a writable register leaves, its transfer failed or not. -/
theorem cacheAt_finish_attempt (w : PlannedWrite) (hw : writableAt s.cfg.toConfigData w.reg = true) :
    cacheAt (finish (attempt w s)) w.reg = w.word := by
  have hc : (finish (attempt w s)).cache = (afterAnswered w.reg w.word (w.draw s)).cache := by
    unfold attempt
    rw [if_pos hw]
    split
    · rfl
    · exact raise_cache _ _
  rw [cacheAt_congr hc, cacheAt_afterAnswered_self]

/-- R136: the cache entry after `WRITE`. -/
theorem cacheAt_of_exec_write {t : State} (hs : s.seq = .idle) (hd : findRegister s.cfg.toConfigData s.a = some d)
    (hw : d.writable = true) (h : exec .write s = .next t) : cacheAt t d.address = s.v := by
  simp only [exec, execWrite, command_idle _ hs, writeReg_found hd, Host.Outcome.next.injEq] at h
  rw [← h]
  exact cacheAt_finish_attempt ⟨d.address, s.v, 0⟩ ((writableAt_of_found (findRegister_some hd).1).trans hw)

/-- R139: `READ` served from the cache. -/
theorem exec_read_cached (hs : s.seq = .idle) (hd : findRegister s.cfg.toConfigData s.a = some d)
    (hr : d.hwRead = false) :
    exec .read s = .next { s with res := cacheAt s d.address, resHeld := true, err := 0 } := by
  simp only [exec, execRead, command_idle _ hs, readReg_cached hd hr, andThen_done]
  rw [finish_done () (show (setRes _ s).seq = .idle from hs)]
  rfl

end Sys2Proof.Machine
end

section
/-! PROOFS. Frame data and reads after writes (spec/20_memory.md R53, R62). -/

namespace Sys2Proof.Machine

open Sys2Proof Sys2Proof.Safety

/-- Settles O4: the data bytes are the digits of the word, and the address byte is the direction bit above the address. -/
theorem frameDataMostSignificantFirst : Obligations.FrameDataMostSignificantFirst := by
  intro a v
  obtain ⟨h1, h2, h3, h4⟩ := ofWord_toNat (addressByte true a) v
  have hr : (Frame.readReq a).b0.toNat = a.toNat := (addressByte_toNat false a).trans (Nat.zero_add _)
  exact ⟨h1, h2, h3, h4, addressByte_toNat true a, hr, fun f => ⟨rfl, word_toNat f⟩⟩

/-- Settles O19: the write leaves its value in the cache, whatever its transfer did, and the read is served from there. -/
theorem readAfterWrite : Obligations.ReadAfterWrite := by
  intro s t d hs hd hw hv h
  have hc := cacheAt_of_exec_write hs hd hw h
  obtain ⟨hcfg, -, ha, -, -, -, -, -, -, -, hseq⟩ := operandRegistersNeverWritten .write s t h
  rw [← hcfg, ← ha] at hd
  rw [exec_read_cached (hseq.trans hs) hd (hwRead_eq_false hw hv), hc]

end Sys2Proof.Machine
end

section
/-! SUPPORT. The decoder and the encoder, branch by branch (spec/30_encoding.md R80 to R91): which bytes decode, and to
what. -/

namespace Sys2Proof

variable {f : Frame} {i : Instr} {op b : Byte}

/-! ## The address byte -/

/-- R80: the address byte is put together again from its write flag and its address. -/
theorem addressByte_msb_setWidth (b : Byte) : addressByte b.msb (b.setWidth 7) = b :=
  BitVec.eq_of_toNat_eq ((addressByte_toNat _ _).trans (toNat_eq_msb_add_low b).symm)

/-- R80: with the write flag clear, the address byte is zero exactly at address 0. -/
theorem setWidth_eq_zero_iff_of_msb (h : b.msb = false) : b.setWidth 7 = 0 ↔ b = 0 := by
  constructor
  · intro h0
    rw [← addressByte_msb_setWidth b, h, h0]
    rfl
  · rintro rfl
    rfl

/-! ## The branches of the frame decoder -/

theorem decodeFrame_of_msb (h : f.b0.msb = true) : decodeFrame f = some (.dgramWrite (f.b0.setWidth 7) f.word) :=
  if_pos h

/-- R87: a read frame with a payload. -/
theorem decodeFrame_payload (h : f.b0.msb = false) (hw : f.word ≠ 0) : decodeFrame f = none := by
  simp only [decodeFrame, h, bne_iff_ne.mpr hw, Bool.false_eq_true, if_false, if_true]

/-- R84: the dummy stands for the read request of address 0. -/
theorem decodeFrame_request (h : f.b0.msb = false) (hw : f.word = 0) :
    decodeFrame f = if f.b0 = 0 then some .dgramDummy else some (.dgramReadreq (f.b0.setWidth 7)) := by
  simp only [decodeFrame, h, hw, bne_self_eq_false, Bool.false_eq_true, if_false, beq_iff_eq]

/-! ## Frames there and back -/

@[simp] theorem decodeFrame_write (a : Addr) (v : Word) : decodeFrame (Frame.write a v) = some (.dgramWrite a v) := by
  obtain ⟨haddr, hmsb⟩ : (Frame.write a v).b0.setWidth 7 = a ∧ (Frame.write a v).b0.msb = true := addressByte_write a
  rw [decodeFrame_of_msb hmsb, haddr, word_write]

theorem decodeFrame_readReq {a : Addr} (h : a ≠ 0) : decodeFrame (Frame.readReq a) = some (.dgramReadreq a) := by
  obtain ⟨haddr, hmsb⟩ : (Frame.readReq a).b0.setWidth 7 = a ∧ (Frame.readReq a).b0.msb = false := addressByte_read a
  have hne : (Frame.readReq a).b0 ≠ 0 := fun h0 => h (haddr.symm.trans ((setWidth_eq_zero_iff_of_msb hmsb).mpr h0))
  rw [decodeFrame_request hmsb (word_readReq a), if_neg hne, haddr]

@[simp] theorem decodeFrame_dummy : decodeFrame Frame.dummy = some .dgramDummy :=
  (decodeFrame_request rfl word_dummy).trans (if_pos rfl)

/-- R82: a frame with the write flag set is the write of its own address and word. -/
theorem write_eq_of_msb (h : f.b0.msb = true) : Frame.write (f.b0.setWidth 7) f.word = f := by
  rw [Frame.write, ← h, addressByte_msb_setWidth, ofWord_word]

/-- R83: a frame with the flag clear and no payload is the read request for its own address. -/
theorem readReq_eq_of_msb (h : f.b0.msb = false) (hw : f.word = 0) : Frame.readReq (f.b0.setWidth 7) = f := by
  rw [Frame.readReq, ← h, ← hw, addressByte_msb_setWidth, ofWord_word]

/-- R81: a frame that decodes is the encoding of what it decodes to. -/
theorem encode_of_decodeFrame (h : decodeFrame f = some i) : encode i = f.bytes ∧ i.wellFormed = true := by
  cases hm : f.b0.msb with
  | true =>
    obtain rfl : Instr.dgramWrite (f.b0.setWidth 7) f.word = i := Option.some.inj ((decodeFrame_of_msb hm).symm.trans h)
    exact ⟨congrArg Frame.bytes (write_eq_of_msb hm), rfl⟩
  | false =>
    by_cases hw : f.word = 0
    · have hf := readReq_eq_of_msb hm hw
      rw [decodeFrame_request hm hw] at h
      by_cases h0 : f.b0 = 0
      · obtain rfl : Instr.dgramDummy = i := Option.some.inj ((if_pos h0).symm.trans h)
        rw [(setWidth_eq_zero_iff_of_msb hm).mpr h0, readReq_zero] at hf
        exact ⟨congrArg Frame.bytes hf, rfl⟩
      · obtain rfl : Instr.dgramReadreq (f.b0.setWidth 7) = i := Option.some.inj ((if_neg h0).symm.trans h)
        exact ⟨congrArg Frame.bytes hf, bne_iff_ne.mpr (mt (setWidth_eq_zero_iff_of_msb hm).mp h0)⟩
    · rw [decodeFrame_payload hm hw] at h
      cases h

/-! ## Opcodes there and back -/

/-- R89: the opcode of a command stands in the map. -/
theorem decodeCommand_of_isCommand (h : i.isCommand = true) : ∃ op, encode i = [op] ∧ decodeCommand op = some i := by
  cases i with
  | dgramWrite a v => cases h
  | dgramReadreq a => cases h
  | dgramDummy => cases h
  | _ => exact ⟨_, rfl, rfl⟩

/-- R89: every row of the map is the encoding of its command. -/
theorem encode_of_decodeCommand (h : decodeCommand op = some i) : encode i = [op] ∧ i.wellFormed = true := by
  have hall : ∀ row ∈ commandTable, encode row.2 = [row.1] ∧ row.2.wellFormed = true := by decide
  obtain ⟨row, hrow, rfl⟩ := Option.map_eq_some_iff.mp h
  obtain rfl : row.1 = op := by simpa using List.find?_some hrow
  exact hall row (List.mem_of_find?_eq_some hrow)

/-! ## The decoder on bytes -/

theorem decode_bytes (h : decodeFrame f = some i) : decode f.bytes = .ok i := by
  simp [decode, Frame.bytes, h]

/-- R80, R88: bytes that decode are one opcode or one frame. -/
theorem decode_ok {bytes : List Byte} (h : decode bytes = .ok i) :
    (∃ op, bytes = [op] ∧ decodeCommand op = some i) ∨ ∃ f : Frame, bytes = f.bytes ∧ decodeFrame f = some i := by
  unfold decode at h
  split at h
  · rename_i op
    split at h
    · rename_i hd
      exact .inl ⟨op, rfl, hd.trans (congrArg some (Except.ok.inj h))⟩
    · cases h
  · rename_i b0 b1 b2 b3 b4
    split at h
    · rename_i hd
      exact .inr ⟨⟨b0, b1, b2, b3, b4⟩, rfl, hd.trans (congrArg some (Except.ok.inj h))⟩
    · cases h
  · cases h

end Sys2Proof

namespace Sys2Proof.Machine

open Sys2Proof Sys2Proof.Safety

variable {s : State}

theorem step_host {act : HostAction} {rest : List HostAction} (hs : s.seq = .idle) (hh : s.host = act :: rest) :
    step s = perform act { s with host := rest } := by
  simp [step, hs, hh]

theorem perform_issue {i : Instr} (h : decode [s.op] = .ok i) : perform .issue s = exec i s := by
  simp [perform, issue, h]

theorem perform_frame {i : Instr} {f : Frame} (h : decode f.bytes = .ok i) : perform (.frame f) s = exec i s := by
  simp [perform, issueFrame, h]

end Sys2Proof.Machine
end

section
/-! SUPPORT. A host's write of an operand register commutes with every instruction that does not name the register
(spec/30_encoding.md R90, spec/10_state.md R25). -/

namespace Sys2Proof.Machine

open Sys2Proof Sys2Proof.Safety

variable (r : PortReg) (x : Quad)

/-- A result made of what a sub-operation found. -/
theorem andThen_result_setOperand {α : Type} (m : Reply α) (f : α → State → State)
    (hf : ∀ y s, f y (setOperand r x s) = setOperand r x (f y s)) :
    ((Reply.mapState (setOperand r x) m).andThen fun y s => .done () (f y s)) =
      Reply.mapState (setOperand r x) (m.andThen fun y s => .done () (f y s)) :=
  andThen_setOperand r x m _ fun y s => congrArg (Reply.done ()) (hf y s)

theorem deliverVelocity_setOperand (h : r ≠ .q0) (s : State) :
    deliverVelocity (setOperand r x s) = setOperand r x (deliverVelocity s) := by
  simp only [deliverVelocity, setOperand_q0 _ _ _ h, velocityWord_setOperand, setRes_setOperand]

theorem writeCurrent_setOperand (role) (h : r ≠ .q0) (s : State) :
    writeCurrent role (setOperand r x s) = Reply.mapState (setOperand r x) (writeCurrent role s) := by
  simp only [writeCurrent, setOperand_cfg, setOperand_q0 _ _ _ h, writeField_setOperand]

/-- The result word of a converter command that reads `Q0` (R167 to R171). -/
theorem setRes_converted_setOperand (g : Config → Quad → Word) (h : r ≠ .q0) (s : State) :
    setRes (g (setOperand r x s).cfg (setOperand r x s).q0) (setOperand r x s) =
      setOperand r x (setRes (g s.cfg s.q0) s) := by
  rw [setOperand_cfg, setOperand_q0 _ _ _ h, setRes_setOperand]

/-- A command commutes where its body does. -/
theorem exec_setOperand_of_body {i : Instr} {body : State → Reply Unit} (he : ∀ s, exec i s = command body s)
    (hb : ∀ s, body (setOperand r x s) = Reply.mapState (setOperand r x) (body s)) (s : State) :
    exec i (setOperand r x s) = mapNext (setOperand r x) (exec i s) := by
  rw [he, he]
  exact command_setOperand r x body s (hb s)

/-- A command that only makes a result commutes where the making does (R161). -/
theorem exec_setOperand_of_result {i : Instr} {f : State → State}
    (he : ∀ s, exec i s = command (fun s => .done () (f s)) s)
    (hf : ∀ s, f (setOperand r x s) = setOperand r x (f s)) (s : State) :
    exec i (setOperand r x s) = mapNext (setOperand r x) (exec i s) :=
  exec_setOperand_of_body r x he (fun s => congrArg (Reply.done ()) (hf s)) s

/-- R90: an instruction after a host's write of a register it does not name is that write after the instruction. -/
theorem exec_setOperand {i : Instr} (h : r ∉ i.operands) (s : State) :
    exec i (setOperand r x s) = mapNext (setOperand r x) (exec i s) := by
  cases i <;> simp only [Instr.operands, List.mem_cons, List.not_mem_nil, or_false, not_or] at h
  case lookup =>
    refine exec_setOperand_of_body r x (fun _ => rfl) (fun s => ?_) s
    rw [setOperand_a _ _ _ h, lookup_setOperand]
    exact andThen_result_setOperand _ _ _ _ fun d s => setRes_setOperand r x _ s
  case fieldExtract =>
    obtain ⟨ha, hv⟩ := h
    refine exec_setOperand_of_body r x (fun _ => rfl) (fun s => ?_) s
    rw [setOperand_a _ _ _ ha, field_setOperand]
    exact andThen_result_setOperand _ _ _ _ fun F s => by rw [setOperand_v _ _ _ hv, setRes_setOperand]
  case fieldCompose =>
    obtain ⟨ha, hv, hw⟩ := h
    refine exec_setOperand_of_body r x (fun _ => rfl) (fun s => ?_) s
    rw [setOperand_a _ _ _ ha, field_setOperand]
    exact andThen_result_setOperand _ _ _ _ fun F s => by
      rw [setOperand_v _ _ _ hv, setOperand_w _ _ _ hw, setRes_setOperand]
  case write =>
    obtain ⟨ha, hv⟩ := h
    exact exec_setOperand_of_body r x (fun _ => rfl)
      (fun s => by rw [setOperand_a _ _ _ ha, setOperand_v _ _ _ hv, writeReg_setOperand]) s
  case writeField =>
    obtain ⟨ha, hv⟩ := h
    exact exec_setOperand_of_body r x (fun _ => rfl)
      (fun s => by rw [setOperand_a _ _ _ ha, setOperand_v _ _ _ hv, writeField_setOperand]) s
  case read =>
    refine exec_setOperand_of_body r x (fun _ => rfl) (fun s => ?_) s
    rw [setOperand_a _ _ _ h, readReg_setOperand]
    exact andThen_result_setOperand _ _ _ _ (setRes_setOperand r x)
  case readField =>
    refine exec_setOperand_of_body r x (fun _ => rfl) (fun s => ?_) s
    rw [setOperand_a _ _ _ h, readField_setOperand]
    exact andThen_result_setOperand _ _ _ _ (setRes_setOperand r x)
  case getShadow =>
    refine exec_setOperand_of_body r x (fun _ => rfl) (fun s => ?_) s
    rw [setOperand_a _ _ _ h, shadow_setOperand]
    exact andThen_result_setOperand _ _ _ _ (setRes_setOperand r x)
  case rpmToVmax =>
    exact exec_setOperand_of_result r x (fun _ => rfl) (deliverVelocity_setOperand r x h) s
  case vmaxToRpm =>
    exact exec_setOperand_of_result r x (fun _ => rfl)
      (fun s => by rw [setOperand_v _ _ _ h, deliverSpeed_setOperand]) s
  case currentToCs =>
    exact exec_setOperand_of_result r x (fun _ => rfl)
      (setRes_converted_setOperand r x (fun c q => BitVec.ofInt 32 (csOf c.toConfigData (quantity q))) h) s
  case accelToRegister =>
    exact exec_setOperand_of_result r x (fun _ => rfl)
      (setRes_converted_setOperand r x (fun c q => BitVec.ofInt 32 (aregOf c.toConfigData (quantity q))) h) s
  case durationToTzerowait =>
    exact exec_setOperand_of_result r x (fun _ => rfl)
      (setRes_converted_setOperand r x (fun c q => BitVec.ofInt 32 (tzwOf c.toConfigData (quantity q))) h) s
  case stop => exact exec_setOperand_of_body r x (fun _ => rfl) (writeRole_setOperand r x _ _) s
  case rotate =>
    refine exec_setOperand_of_body r x (fun _ => rfl) (fun s => ?_) s
    rw [setOperand_q0 _ _ _ h, writeRole_setOperand]
    exact next_setOperand _ _ _ _ fun s => by rw [setOperand_q0 _ _ _ h, writeSpeed_setOperand]
  case moveTo =>
    obtain ⟨hv, hq⟩ := h
    refine exec_setOperand_of_body r x (fun _ => rfl) (fun s => ?_) s
    rw [writeRole_setOperand]
    refine next_setOperand _ _ _ _ fun s => ?_
    rw [setOperand_q0 _ _ _ hq, writeSpeed_setOperand]
    exact next_setOperand _ _ _ _ fun s => by rw [setOperand_v _ _ _ hv, writeRole_setOperand]
  case setGlobalScaling =>
    exact exec_setOperand_of_body r x (fun _ => rfl)
      (fun s => by rw [setOperand_q0 _ _ _ h, writeRole_setOperand]) s
  case setLinearAcceleration =>
    refine exec_setOperand_of_body r x (fun _ => rfl) (fun s => ?_) s
    rw [setOperand_q0 _ _ _ h, writeAccel_setOperand]
    refine next_setOperand _ _ _ _ fun s => ?_
    rw [setOperand_q0 _ _ _ h, writeAccel_setOperand]
    refine next_setOperand _ _ _ _ fun s => ?_
    rw [setOperand_q0 _ _ _ h, writeAccel_setOperand]
    exact next_setOperand _ _ _ _ fun s => by rw [setOperand_q0 _ _ _ h, writeAccel_setOperand]
  case setAdvancedAcceleration =>
    obtain ⟨h0, h1, h2, h3⟩ := h
    refine exec_setOperand_of_body r x (fun _ => rfl) (fun s => ?_) s
    rw [setOperand_q0 _ _ _ h0, writeAccel_setOperand]
    refine next_setOperand _ _ _ _ fun s => ?_
    rw [setOperand_q1 _ _ _ h1, writeAccel_setOperand]
    refine next_setOperand _ _ _ _ fun s => ?_
    rw [setOperand_q2 _ _ _ h2, writeAccel_setOperand]
    exact next_setOperand _ _ _ _ fun s => by rw [setOperand_q3 _ _ _ h3, writeAccel_setOperand]
  case setIrun => exact exec_setOperand_of_body r x (fun _ => rfl) (writeCurrent_setOperand r x _ h) s
  case setIhold =>
    refine exec_setOperand_of_body r x (fun _ => rfl) (fun s => ?_) s
    rw [writeCurrent_setOperand r x _ h]
    exact next_setOperand _ _ _ _ fun s => by rw [setOperand_cfg, writeField_setOperand]
  case getActualMotorPosition =>
    refine exec_setOperand_of_body r x (fun _ => rfl) (fun s => ?_) s
    rw [setOperand_cfg, readReg_setOperand]
    exact andThen_result_setOperand _ _ _ _ (setRes_setOperand r x)
  case getActualVelocity =>
    refine exec_setOperand_of_body r x (fun _ => rfl) (fun s => ?_) s
    rw [setOperand_cfg, readReg_setOperand]
    exact andThen_result_setOperand _ _ _ _ fun w s => deliverSpeed_setOperand r x _ s
  case setStealthChop =>
    exact exec_setOperand_of_body r x (fun _ => rfl)
      (fun s => by rw [setOperand_cfg, setOperand_v _ _ _ h, writeField_setOperand]) s
  case dgramWrite a v => exact sendFrame_setOperand r x _ s
  case dgramReadreq a => exact sendFrame_setOperand r x _ s
  case dgramDummy => exact sendFrame_setOperand r x _ s

end Sys2Proof.Machine
end

section
/-! PROOFS. The encodings (spec/30_encoding.md). -/

namespace Sys2Proof.Machine

open Sys2Proof Sys2Proof.Safety

/-- Settles O1: a command by its opcode's row in the map, a wire frame by its branch of the frame decoder. -/
theorem decodeEncodeRoundTrip : Obligations.DecodeEncodeRoundTrip := by
  intro i h
  cases hi : i.isCommand with
  | true =>
    obtain ⟨op, he, hd⟩ := decodeCommand_of_isCommand hi
    rw [he]
    exact decode_opcode hd
  | false =>
    cases i with
    | dgramWrite a v => exact decode_bytes (decodeFrame_write a v)
    | dgramReadreq a => exact decode_bytes (decodeFrame_readReq (bne_iff_ne.mp h))
    | dgramDummy => exact decode_bytes decodeFrame_dummy
    | _ => cases hi

/-- Settles O2: bytes that decode are one opcode or one frame, and each of these is put together again. -/
theorem decodedBytesReencode : Obligations.DecodedBytesReencode := by
  intro bytes i h
  obtain ⟨op, rfl, hd⟩ | ⟨f, rfl, hd⟩ := decode_ok h
  · exact encode_of_decodeCommand hd
  · exact encode_of_decodeFrame hd

/-- Settles O51, by `exec_setOperand`. -/
theorem unnamedOperandsDoNotMatter : Obligations.UnnamedOperandsDoNotMatter :=
  fun _ r x s h => exec_setOperand r x h s

/-- Settles O3: each word is the encoding of its instruction, and the two reserved opcodes have no row. -/
theorem specWordsDecode : Obligations.SpecWordsDecode := by
  have back := decodeEncodeRoundTrip
  exact ⟨back .lookup rfl, back .writeField rfl, back .getShadow rfl, back .durationToTzerowait rfl,
    back .setAdvancedAcceleration rfl, back .setStealthChop rfl, back (.dgramWrite 0x27 0x0001D208) rfl,
    back (.dgramReadreq 0x21) rfl, back .dgramDummy rfl, decode_reserved rfl, decode_reserved rfl⟩

/-- Settles O54: the host's next action is taken from the list, and what it hands over decodes to the instruction. -/
theorem stepRunsDecodedInstruction : Obligations.StepRunsDecodedInstruction := by
  intro s i rest hs
  refine ⟨fun hh hd => ?_, fun f hh hd => ?_⟩
  · exact (step_host hs hh).trans (perform_issue hd)
  · exact (step_host hs hh).trans (perform_frame hd)

end Sys2Proof.Machine
end

section
/-! SUPPORT. The field unit's functions, bit by bit (spec/40_field_unit.md R112 to R114), and a command that makes its result
of a field. -/

namespace Sys2Proof.Machine

open Sys2Proof Sys2Proof.Safety

variable {F G : FieldDescriptor} {s : State}

theorem fits_iff : F.fits = true ↔ 1 ≤ F.width ∧ F.offset + F.width ≤ 32 := by
  simp [FieldDescriptor.fits]

/-! ## The mask -/

theorem fieldMask_lt (h : F.fits = true) : (2 ^ F.width - 1) * 2 ^ F.offset < 2 ^ 32 := by
  have hle : F.width + F.offset ≤ 32 := by have := (fits_iff.mp h).2; omega
  calc (2 ^ F.width - 1) * 2 ^ F.offset
      < 2 ^ F.width * 2 ^ F.offset := Nat.mul_lt_mul_of_pos_right (Nat.sub_one_lt (by simp)) (Nat.two_pow_pos _)
    _ = 2 ^ (F.width + F.offset) := (Nat.pow_add ..).symm
    _ ≤ 2 ^ 32 := Nat.pow_le_pow_right (by decide) hle

theorem fieldMask_toNat (h : F.fits = true) : (fieldMask F).toNat = (2 ^ F.width - 1) * 2 ^ F.offset :=
  (BitVec.toNat_ofNat _ _).trans (Nat.mod_eq_of_lt (fieldMask_lt h))

/-- A field that fits has a bit in its mask. -/
theorem one_le_fieldMask (h : F.fits = true) : 1 ≤ (fieldMask F).toNat := by
  have hw : 1 < 2 ^ F.width := Nat.one_lt_two_pow (by have := (fits_iff.mp h).1; omega)
  rw [fieldMask_toNat h]
  exact Nat.mul_pos (by omega) (Nat.two_pow_pos _)

/-- R112, bit by bit. -/
theorem getLsbD_fieldMask (h : F.fits = true) (b : Nat) :
    (fieldMask F).getLsbD b = (decide (F.offset ≤ b) && decide (b < F.offset + F.width)) := by
  have hle := (fits_iff.mp h).2
  rw [fieldMask, BitVec.getLsbD_ofNat, Nat.testBit_mul_two_pow, Nat.testBit_two_pow_sub_one, Bool.eq_iff_iff]
  simp only [Bool.and_eq_true, decide_eq_true_eq]
  omega

theorem fieldMask_of_width_eq (h : F.fits = true) (hw : F.width = 32) : fieldMask F = 0xFFFFFFFF := by
  have ho : F.offset = 0 := by have := (fits_iff.mp h).2; omega
  rw [fieldMask, hw, ho]
  rfl

/-! ## `extract` and `compose` -/

/-- R113, bit by bit. -/
theorem getLsbD_fieldExtract (h : F.fits = true) (w : Word) (b : Nat) :
    (fieldExtract F w).getLsbD b = (w.getLsbD (F.offset + b) && decide (b < F.width)) := by
  simp [fieldExtract, getLsbD_fieldMask h]

/-- R113, as a number. -/
theorem fieldExtract_toNat (h : F.fits = true) (w : Word) :
    (fieldExtract F w).toNat = w.toNat / 2 ^ F.offset % 2 ^ F.width := by
  apply Nat.eq_of_testBit_eq
  intro b
  rw [BitVec.testBit_toNat, getLsbD_fieldExtract h, Nat.testBit_mod_two_pow, Nat.testBit_div_two_pow, BitVec.testBit_toNat,
    Nat.add_comm, Bool.and_comm]

/-- R114, bit by bit: inside the field the bits of `v`, outside it those of `old`. -/
theorem getLsbD_fieldCompose (h : F.fits = true) (old v : Word) (b : Nat) :
    (fieldCompose F old v).getLsbD b =
      if F.offset ≤ b ∧ b < F.offset + F.width then v.getLsbD (b - F.offset) else old.getLsbD b := by
  have hle := (fits_iff.mp h).2
  simp only [fieldCompose, BitVec.getLsbD_or, BitVec.getLsbD_and, BitVec.getLsbD_not, BitVec.getLsbD_shiftLeft,
    getLsbD_fieldMask h]
  split
  · next hb => simp [hb, show b < 32 by omega, show ¬ b < F.offset by omega]
  · next hb =>
    have hm : (decide (F.offset ≤ b) && decide (b < F.offset + F.width)) = false := by simpa using hb
    simpa [hm] using BitVec.lt_of_getLsbD

/-- Disjoint masks: no bit is in both fields. -/
theorem not_inside_of_disjoint (hF : F.fits = true) (hG : G.fits = true) (h : fieldMask F &&& fieldMask G = 0) {b : Nat}
    (hb : G.offset ≤ b ∧ b < G.offset + G.width) : ¬ (F.offset ≤ b ∧ b < F.offset + F.width) := by
  have := congrArg (fun m => BitVec.getLsbD m b) h
  simpa [getLsbD_fieldMask hF, getLsbD_fieldMask hG, hb] using this

/-- Words that agree below the field's width have the same bits there. -/
theorem getLsbD_eq_of_mod_eq {u v : Word} {n b : Nat} (h : u.toNat % 2 ^ n = v.toNat % 2 ^ n) (hb : b < n) :
    u.getLsbD b = v.getLsbD b := by
  have := congrArg (fun m => Nat.testBit m b) h
  simpa [Nat.testBit_mod_two_pow, hb, BitVec.testBit_toNat] using this

/-! ## The laws of R114 -/

section
variable (h : F.fits = true) (old v : Word)
include h

/-- R114 (a). -/
theorem fieldExtract_fieldCompose : (fieldExtract F (fieldCompose F old v)).toNat = v.toNat % 2 ^ F.width := by
  apply Nat.eq_of_testBit_eq
  intro b
  rw [BitVec.testBit_toNat, getLsbD_fieldExtract h, getLsbD_fieldCompose h, Nat.testBit_mod_two_pow, BitVec.testBit_toNat]
  by_cases hb : b < F.width <;> simp [hb]

/-- R114 (b). -/
theorem fieldCompose_outside : fieldCompose F old v &&& ~~~(fieldMask F) = old &&& ~~~(fieldMask F) := by
  apply BitVec.eq_of_getLsbD_eq
  intro b hb
  simp only [BitVec.getLsbD_and, BitVec.getLsbD_not, getLsbD_fieldCompose h, getLsbD_fieldMask h]
  split
  · next hin => simp [hin]
  · rfl

/-- R114 (c). -/
theorem fieldExtract_fieldCompose_disjoint (hG : G.fits = true) (hd : fieldMask F &&& fieldMask G = 0) :
    fieldExtract G (fieldCompose F old v) = fieldExtract G old := by
  apply BitVec.eq_of_getLsbD_eq
  intro b _
  rw [getLsbD_fieldExtract hG, getLsbD_fieldExtract hG]
  by_cases hb : b < G.width
  · rw [getLsbD_fieldCompose h, if_neg (not_inside_of_disjoint h hG hd (by omega))]
  · simp [hb]

/-- R114 (d). -/
theorem fieldCompose_fieldExtract : fieldCompose F old (fieldExtract F old) = old := by
  apply BitVec.eq_of_getLsbD_eq
  intro b _
  rw [getLsbD_fieldCompose h]
  split
  · next hin =>
    rw [getLsbD_fieldExtract h, show F.offset + (b - F.offset) = b by omega]
    simp [show b - F.offset < F.width by omega]
  · rfl

/-- R114 (e). -/
theorem fieldCompose_congr {u : Word} (hu : u.toNat % 2 ^ F.width = v.toNat % 2 ^ F.width) :
    fieldCompose F old u = fieldCompose F old v := by
  apply BitVec.eq_of_getLsbD_eq
  intro b _
  rw [getLsbD_fieldCompose h, getLsbD_fieldCompose h]
  split
  · exact getLsbD_eq_of_mod_eq hu (by omega)
  · rfl

end

/-! ## The lookup by address, and a command that makes its result of a field -/

theorem findRegister_of_le (c : ConfigData) {a : Word} (h : a.toNat ≤ 127) :
    findRegister c a = c.register? (a.setWidth 7) := by
  simp [findRegister, addrOf_of_le h]

theorem findRegister_of_gt (c : ConfigData) {a : Word} (h : 127 < a.toNat) : findRegister c a = none := by
  simp [findRegister, addrOf_of_gt h]

/-- R111, R116, R117: the result of a known field is held, and nothing else changes but `ERR`. -/
theorem command_fieldResult_some (hs : s.seq = .idle) (hF : findField s.cfg.toConfigData s.a = some F)
    (g : FieldDescriptor → State → Word) :
    command (fun s => (field s.a s).andThen fun F s => .done () (setRes (g F s) s)) s =
      .next { s with res := g F s, resHeld := true, err := 0 } := by
  rw [command_idle _ hs, field_some hF, andThen_done, finish_done () (show (setRes _ s).seq = .idle from hs)]
  rfl

theorem command_fieldResult_none (hs : s.seq = .idle) (hF : findField s.cfg.toConfigData s.a = none)
    (g : FieldDescriptor → State → Word) :
    command (fun s => (field s.a s).andThen fun F s => .done () (setRes (g F s) s)) s =
      .next (raise .invalidParameter s) := by
  rw [command_idle _ hs, field_none hF, andThen_err, finish_err]

end Sys2Proof.Machine
end

section
/-! PROOFS. The field unit (spec/40_field_unit.md R110 to R117). -/

namespace Sys2Proof.Machine

open Sys2Proof Sys2Proof.Safety

/-- Settles O8: the laws, each by comparing bits inside and outside the field. -/
theorem composeLaws : Obligations.ComposeLaws :=
  fun _ old v h => ⟨rfl, fieldExtract_fieldCompose h old v, fieldCompose_outside h old v,
    fun _ hG hd => fieldExtract_fieldCompose_disjoint h old v hG hd, fieldCompose_fieldExtract h old,
    fun _ hu => fieldCompose_congr h old v hu⟩

/-- Settles O6: the mask's number does not reach 2^32, so its bits are those of `2^width - 1` moved up by the offset. -/
theorem maskIsContiguousOnes : Obligations.MaskIsContiguousOnes :=
  fun _ h => ⟨fieldMask_toNat h, one_le_fieldMask h, getLsbD_fieldMask h, fieldMask_of_width_eq h⟩

/-- Settles O7: the bound is that of the remainder. -/
theorem extractIsZeroExtendedField : Obligations.ExtractIsZeroExtendedField := by
  intro F w h
  have hn := fieldExtract_toNat h w
  exact ⟨rfl, hn ▸ Nat.mod_lt _ (Nat.two_pow_pos _), hn⟩

/-- Settles O9: in range the registry decides, above it no address is found. -/
theorem lookupOfAddress : Obligations.LookupOfAddress := by
  intro s a
  refine ⟨fun ha d hd => ?_, fun ha hd => ?_, fun ha => ?_⟩
  · exact ⟨lookup_some ((findRegister_of_le _ ha).trans hd), register?_address hd⟩
  · exact lookup_none ((findRegister_of_le _ ha).trans hd)
  · exact lookup_none (findRegister_of_gt _ ha)

/-- Settles O11: the field's lookup decides, and its result is the extracted word. -/
theorem fieldExtractCommand : Obligations.FieldExtractCommand := by
  refine ⟨decodeEncodeRoundTrip .fieldExtract rfl, fun s hs => ⟨fun F hF => ?_, fun hF => ?_⟩⟩
  · exact command_fieldResult_some hs hF fun F s => fieldExtract F s.v
  · exact command_fieldResult_none hs hF fun F s => fieldExtract F s.v

/-- Settles O12: the field's lookup decides, and its result is the composed word. -/
theorem fieldComposeCommand : Obligations.FieldComposeCommand := by
  refine ⟨decodeEncodeRoundTrip .fieldCompose rfl, fun s hs => ⟨fun F hF => ?_, fun hF => ?_⟩⟩
  · exact command_fieldResult_some hs hF fun F s => fieldCompose F s.w s.v
  · exact command_fieldResult_none hs hF fun F s => fieldCompose F s.w s.v

end Sys2Proof.Machine
end

section
/-! SUPPORT. What every step keeps (spec/41_communicator.md R131, spec/93_implementation_defined.md U19,
spec/60_exceptions.md R230): the part of the invariant that does not speak of `SEQ`, under each operation a step is made
of, and the bus events between two phases. -/

namespace Sys2Proof.Machine

open Sys2Proof Sys2Proof.Safety

variable {s t : State} {i : Instr} {op : Byte} {k : Nat} {ph : Phase}

/-! ## Whole brackets -/

theorem bracketed_append {t0 t1 : List Event} (h0 : bracketed t0 = true) (h1 : bracketed t1 = true) :
    bracketed (t0 ++ t1) = true := by
  fun_induction bracketed t0 with
  | case1 => exact h1
  | case2 tx n rest ih => exact ih h0
  | case3 => cases h0

theorem bracketed_flatMap (c : ConfigData) (sent : List Frame) : bracketed (sent.flatMap (bracketEvents c)) = true := by
  induction sent with
  | nil => rfl
  | cons f rest ih => exact ih

/-- R81, R131: whole brackets of the block's own frames. -/
theorem framesKnown_flatMap (c : ConfigData) {sent : List Frame} (h : ∀ f ∈ sent, blockFrame f = true) :
    FramesKnown c (sent.flatMap (bracketEvents c)) := by
  intro tx n hm
  obtain ⟨f, hf, he⟩ := List.mem_flatMap.mp hm
  obtain ⟨rfl, rfl⟩ : tx = f ∧ n = c.xferTimeout := by simpa [bracketEvents] using he
  exact ⟨h _ hf, rfl⟩

theorem framesKnown_append {c : ConfigData} {t0 t1 : List Event} (h0 : FramesKnown c t0) (h1 : FramesKnown c t1) :
    FramesKnown c (t0 ++ t1) :=
  fun tx n hm => (List.mem_append.mp hm).elim (h0 tx n) (h1 tx n)

/-! ## The part of the invariant that does not speak of `SEQ` -/

/-- The frames, the cache and `ERR` as the invariant has them. -/
structure Sound (s : State) : Prop where
  frames  : FramesKnown s.cfg.toConfigData s.trace
  cacheOk : CacheGuarded s
  errOk   : errKnown s.err = true

theorem sound_of_inv (h : Inv s) : Sound s := ⟨h.frames, h.cacheOk, h.errOk⟩

/-- More events of the block's own frames, the cache as it was. -/
theorem Sound.extend (h : Sound s) {es : List Event} (hcfg : t.cfg = s.cfg) (htrace : t.trace = s.trace ++ es)
    (hes : FramesKnown s.cfg.toConfigData es) (hcache : t.cache = s.cache) (herr : errKnown t.err = true) : Sound t where
  frames := by
    rw [hcfg, htrace]
    exact framesKnown_append h.frames hes
  cacheOk := by
    intro a ha
    rw [hcfg] at ha
    rw [cacheAt_congr hcache, h.cacheOk a ha]
  errOk := herr

/-- No event, the cache as it was. -/
theorem Sound.congr (h : Sound s) (hcfg : t.cfg = s.cfg) (htrace : t.trace = s.trace) (hcache : t.cache = s.cache)
    (herr : errKnown t.err = true) : Sound t :=
  h.extend (es := []) hcfg (by simp [htrace]) (by simp [FramesKnown]) hcache herr

/-- U19: between two states of one command the block sends its own frames and writes only where a write is accepted. -/
theorem Sound.ran {sent : List Frame} {wrote : List Addr} (h : Sound s) (hr : Ran s t sent wrote) : Sound t where
  frames := by
    rw [hr.cfg, hr.trace]
    exact framesKnown_append h.frames (framesKnown_flatMap _ hr.frames)
  cacheOk := by
    intro a ha
    rw [hr.cfg] at ha
    have hnot : a ∉ wrote := fun hm => by simp [hr.writable a hm] at ha
    rw [hr.cache a hnot, h.cacheOk a ha]
  errOk := by rw [hr.err]; exact h.errOk

theorem sound_select (h : Sound s) : Sound (emit .select s) :=
  h.extend rfl rfl (by simp [FramesKnown]) rfl h.errOk

theorem sound_deselect (h : Sound s) : Sound (emit .deselect s) :=
  h.extend rfl rfl (by simp [FramesKnown]) rfl h.errOk

/-- R130: a transfer records its frame with the configured timeout; the answer is not recorded. -/
theorem transfer_frame (f : Frame) (s : State) :
    (transfer f s).trace = s.trace ++ [.transfer f s.cfg.xferTimeout] ∧ (transfer f s).cache = s.cache ∧
      (transfer f s).err = s.err := by
  cases h : s.answers <;> simp [transfer, takeAnswer, h, emit]

theorem sound_transfer {f : Frame} (h : Sound s) (hf : blockFrame f = true) : Sound (transfer f s) := by
  obtain ⟨htrace, hcache, herr⟩ := transfer_frame f s
  exact h.extend (transfer_cfg f s) htrace (by simp [FramesKnown, hf]) hcache (by rw [herr]; exact h.errOk)

/-! ## The end of a command -/

/-- R238: with no bracket open, an error emits nothing. -/
theorem raise_trace (kind : ErrKind) (h : owesDeselect s.seq = false) : (raise kind s).trace = s.trace := by
  simp [raise, h, setErr]

/-- R238: the `Deselect` of an open bracket. -/
theorem raise_trace_owed (kind : ErrKind) (h : owesDeselect s.seq = true) :
    (raise kind s).trace = s.trace ++ [.deselect] := by
  simp [raise, h, setErr]

theorem sound_raise {kind : ErrKind} (h : Sound s) (hk : errKnown kind.code = true) : Sound (raise kind s) := by
  cases ho : owesDeselect s.seq with
  | false => exact h.congr (raise_cfg kind s) (raise_trace kind ho) (raise_cache kind s) hk
  | true =>
    exact h.extend (raise_cfg kind s) (raise_trace_owed kind ho) (by simp [FramesKnown]) (raise_cache kind s) hk

/-- In `IDLE` the invariant asks for whole brackets and nothing of the transaction in hand. -/
theorem Sound.inv_idle (h : Sound s) (hs : s.seq = .idle) (ht : bracketed s.trace = true) : Inv s where
  seqOk := by rw [hs]; rfl
  events := by rw [hs]; exact ht
  frames := h.frames
  pending := by rw [hs]; exact nofun
  cacheOk := h.cacheOk
  errOk := h.errOk

theorem bracketed_of_idle (h : Inv s) (hs : s.seq = .idle) : bracketed s.trace = true := by
  have := h.events
  rwa [hs] at this

/-- R131: a command's events are whole brackets behind those before it. -/
theorem bracketed_of_ran {sent : List Frame} {wrote : List Addr} (hr : Ran s t sent wrote)
    (h : bracketed s.trace = true) : bracketed t.trace = true := by
  rw [hr.trace]
  exact bracketed_append h (bracketed_flatMap _ _)

/-- R236: the codes a command can end with are codes the block raises. -/
theorem errKnown_of_mem_errorsOf {e : Byte} (h : e ∈ errorsOf i) : errKnown e = true := by
  have hall : (errorsOf i).all errKnown = true := by cases i <;> rfl
  exact List.all_eq_true.mp hall e h

theorem Sound.inv_raise {kind : ErrKind} (h : Sound s) (hk : errKnown kind.code = true)
    (ht : bracketed (raise kind s).trace = true) : Inv (raise kind s) :=
  (sound_raise h hk).inv_idle rfl ht

/-- Only the result registers and the counter of draws written. -/
def ResultsOnly (s t : State) : Prop :=
  ∃ x h y g d, t = { s with res := x, resHeld := h, qres := y, qresHeld := g, draws := d }

theorem Delivered.resultsOnly (h : Delivered i s t) : ResultsOnly s t := by
  obtain ⟨x, hx, y, hy, d, ht, -⟩ := h
  exact ⟨x, hx, y, hy, d, ht⟩

theorem Sound.inv_succeed (h : Sound s) (ht : bracketed s.trace = true) (hr : ResultsOnly s t) : Inv (succeed t) := by
  obtain ⟨x, hx, y, hy, d, rfl⟩ := hr
  exact Sound.inv_idle (h.congr rfl rfl rfl rfl) rfl ht

/-! ## The steps of `IDLE` -/

/-- R131, U19, R230: every instruction, run as a whole. -/
theorem exec_keeps_inv (hinv : Inv s) (h : exec i s = .next t) : Inv t := by
  have hs := idle_of_exec_next h
  have hsound := sound_of_inv hinv
  have hb := bracketed_of_idle hinv hs
  cases hi : i.isCommand with
  | true =>
    obtain ⟨r, hr, c, ⟨sent, wrote, hran, -, -, -, herr⟩, hc⟩ := exec_command i s hi hs
    obtain rfl : finish r = t := by simpa [hr] using h
    obtain ⟨kind, u, rfl, rfl⟩ | ⟨u, v, rfl, rfl, hv⟩ := hc
    · refine (hsound.ran hran).inv_raise (errKnown_of_mem_errorsOf (herr kind u rfl)) ?_
      rw [raise_trace kind (owesDeselect_idle (hran.seq.trans hs))]
      exact bracketed_of_ran hran hb
    · exact (hsound.ran hran).inv_succeed (bracketed_of_ran hran hb) hv.resultsOnly
  | false =>
    obtain ⟨f, hf, he⟩ := exec_wireFrame hi hs
    obtain rfl : bracket f s = t := by simpa [he] using h
    have hran := bracket_ran f hf s
    exact (hsound.ran hran).inv_idle (hran.seq.trans hs) (bracketed_of_ran hran hb)

/-- R91: a reserved opcode sends nothing. -/
theorem issue_keeps_inv (hinv : Inv s) (hs : s.seq = .idle) (h : issue s = .next t) : Inv t := by
  cases hd : decodeCommand s.op with
  | some i => exact exec_keeps_inv hinv ((issue_known hd).symm.trans h)
  | none =>
    rw [issue_reserved hd, command_idle _ hs] at h
    obtain rfl : raise .notImplemented s = t := by simpa using h
    refine (sound_of_inv hinv).inv_raise (by rfl) ?_
    rw [raise_trace _ (owesDeselect_idle hs)]
    exact bracketed_of_idle hinv hs

/-- What the host writes to the port leaves whole brackets, the cache and `ERR`. -/
theorem perform_keeps_inv {act : HostAction} (hinv : Inv s) (hs : s.seq = .idle) (h : perform act s = .next t) :
    Inv t := by
  have hsound := sound_of_inv hinv
  have hb := bracketed_of_idle hinv hs
  cases act with
  | issue => exact issue_keeps_inv hinv hs h
  | frame f =>
    cases hd : decode f.bytes with
    | ok i => exact exec_keeps_inv hinv ((perform_frame hd).symm.trans h)
    | error e => simp [perform, issueFrame, hd] at h
  | start =>
    obtain rfl : accept s = t := by simpa [perform, whenIdle_idle _ hs] using h
    exact ⟨(accepted_legal s.op).1, hb, hsound.frames, nofun, hsound.cacheOk, hsound.errOk⟩
  | reset =>
    obtain rfl : resetInPlace s = t := by simpa [perform, portReset, whenIdle_idle _ hs] using h
    exact ⟨rfl, hb, hsound.frames, nofun, fun a _ => by simp [cacheAt], rfl⟩
  | _ =>
    simp only [perform, portWriteOp, portWriteA, portWriteV, portWriteW, portWriteQ0, portWriteQ1, portWriteQ2, portWriteQ3,
      whenIdle_idle _ hs, Host.Outcome.next.injEq] at h
    rw [← h]
    exact Sound.inv_idle (hsound.congr rfl rfl rfl hsound.errOk) hs hb

/-! ## `CHECK` -/

/-- What the `CHECK` of a sub-operation does: nothing is sent, writes only where they are accepted, a frame of the block's
own built where the bus is used, and an error the block raises. -/
def CheckKeeps (s : State) (r : Reply Bool) : Prop :=
  (∃ wrote, Ran s r.state [] wrote) ∧ (∀ u, r = .done true u → blockFrame u.txn.tx = true) ∧
    ∀ kind u, r = .err kind u → errKnown kind.code = true

theorem Ended.ran_of_zero {α : Type} {P : Addr → Prop} {E : ErrKind → Prop} {r : Reply α} (h : Ended P E 0 s r) :
    ∃ wrote, Ran s r.state [] wrote := by
  obtain ⟨sent, wrote, hr, hlen, -⟩ := h
  obtain rfl : sent = [] := List.eq_nil_of_length_eq_zero (Nat.le_zero.mp hlen)
  exact ⟨wrote, hr⟩

@[simp] theorem checkKeeps_done_false (s : State) : CheckKeeps s (.done false s) :=
  ⟨⟨[], Ran.refl s⟩, by simp, by simp⟩

/-- R40: the frame for the coming transfer. -/
theorem checkKeeps_setTx {f : Frame} (hf : blockFrame f = true) (s : State) :
    CheckKeeps s (.done true (setTx f s)) := by
  refine ⟨⟨[], ?_⟩, ?_, by simp⟩
  · constructor <;> simp [Reply.state, cacheAt]
  · rintro u ⟨⟩
    exact hf

/-- A lookup or a cache update, then the rest of the `CHECK`. -/
theorem checkKeeps_andThen {α : Type} {r : Reply α} {f : α → State → Reply Bool}
    (h : Ended (fun _ => True) (fun kind => errKnown kind.code = true) 0 s r) (hf : ∀ x u, CheckKeeps u (f x u)) :
    CheckKeeps s (r.andThen f) := by
  obtain ⟨wrote, hr⟩ := h.ran_of_zero
  obtain ⟨-, -, -, -, -, -, herr⟩ := h
  cases r with
  | err kind u =>
    refine ⟨⟨wrote, hr⟩, by simp, ?_⟩
    rintro _ _ ⟨⟩
    exact herr kind u rfl
  | done x u =>
    obtain ⟨⟨wrote', hr'⟩, hok⟩ := hf x u
    exact ⟨⟨wrote ++ wrote', hr.trans hr'⟩, hok⟩

section
variable (s : State)

@[simp] theorem checkKeeps_lookup (a : Word) : CheckKeeps s ((lookup a s).andThen fun _ s => .done false s) :=
  checkKeeps_andThen (lookup_ended a (by rfl) s) fun _ => checkKeeps_done_false

@[simp] theorem checkKeeps_field (f : Word) : CheckKeeps s ((field f s).andThen fun _ s => .done false s) :=
  checkKeeps_andThen (field_ended f (by rfl) s) fun _ => checkKeeps_done_false

@[simp] theorem checkKeeps_shadow (a : Word) : CheckKeeps s ((shadow a s).andThen fun _ s => .done false s) := by
  refine checkKeeps_andThen ?_ fun _ => checkKeeps_done_false
  unfold shadow
  split
  · exact Ended.done _ s
  · exact Ended.err (k := .registerAccessFailed) (by simp) (by rfl) s

@[simp] theorem checkKeeps_write (a v : Word) : CheckKeeps s (checkWrite a v s) :=
  checkKeeps_andThen (acceptWrite_ended a v (by rfl) s fun _ _ => trivial) fun r => checkKeeps_setTx (blockFrame_write r v)

@[simp] theorem checkKeeps_fieldWrite (f v : Word) : CheckKeeps s (checkFieldWrite f v s) :=
  checkKeeps_andThen (acceptFieldWrite_ended f v (by rfl) s fun _ _ => trivial) fun p =>
    checkKeeps_setTx (blockFrame_write p.1 p.2)

@[simp] theorem checkKeeps_read (a : Word) : CheckKeeps s (checkRead a s) := by
  refine checkKeeps_andThen (lookup_ended a (by rfl) s) fun d u => ?_
  split
  · exact checkKeeps_setTx (blockFrame_readReq d.address) u
  · exact checkKeeps_done_false u

@[simp] theorem checkKeeps_readField (f : Word) :
    CheckKeeps s ((field f s).andThen fun F s => checkRead (fixedAddr F.reg) s) :=
  checkKeeps_andThen (field_ended f (by rfl) s) fun F u => checkKeeps_read u (fixedAddr F.reg)

/-- R193, R195: a free word may be drawn first. -/
@[simp] theorem checkKeeps_speed (a : Word) (rpm : Rat) : CheckKeeps s (checkSpeed a rpm s) := by
  obtain ⟨⟨wrote, hr⟩, hok⟩ := checkKeeps_write (velocityWord rpm s).2 a (velocityWord rpm s).1
  exact ⟨⟨wrote, (velocityWord_ran rpm s).trans hr⟩, hok⟩

end

/-- R27: the `CHECK` of every sub-operation of every command. -/
theorem subCheck_keeps {r : Reply Bool} (h : subCheck i k s = some r) : CheckKeeps s r := by
  have hall : ∀ r ∈ subCheck i k s, CheckKeeps s r := by
    fun_cases subCheck i k s <;> simp [checkAccel, checkCurrent]
  exact hall r h

/-! ## One phase -/

theorem ResultsOnly.refl (s : State) : ResultsOnly s s := ⟨_, _, _, _, _, rfl⟩

theorem resultsOnly_setRes (x : Word) (s : State) : ResultsOnly s (setRes x s) := ⟨_, _, _, _, _, rfl⟩

theorem resultsOnly_deliverVelocity (s : State) : ResultsOnly s (deliverVelocity s) :=
  (delivered_velocity (i := .rpmToVmax) rfl rfl s).resultsOnly

theorem resultsOnly_deliverSpeed (n : Nat) (s : State) : ResultsOnly s (deliverSpeed n s) :=
  (delivered_speed (i := .vmaxToRpm) rfl rfl n s).resultsOnly

/-- R23: what the last `DONE` of a command writes. -/
theorem deliver_resultsOnly (i : Instr) (s : State) : ResultsOnly s (deliver i s) := by
  fun_cases deliver i s <;>
    simp [ResultsOnly.refl, resultsOnly_setRes, resultsOnly_deliverVelocity, resultsOnly_deliverSpeed]

/-- The invariant at the start of a phase. -/
theorem Sound.inv_goto (h : Sound s) (hl : seqLegal (.run op k ph) = true) (ht : TraceFits (.run op k ph) s.trace)
    (hp : framePending (.run op k ph) = true → blockFrame s.txn.tx = true) : Inv (goto op k ph s) :=
  ⟨hl, ht, h.frames, hp, h.cacheOk, h.errOk⟩

/-- R131: a `Deselect` makes the open bracket whole. -/
theorem bracketed_deselect {es : List Event} (h : ∃ t0 tx n, bracketed t0 = true ∧ es = t0 ++ [.select, .transfer tx n]) :
    bracketed (es ++ [.deselect]) = true := by
  obtain ⟨t0, tx, n, h0, rfl⟩ := h
  rw [List.append_assoc]
  exact bracketed_append h0 rfl

/-- R130: a transfer in the bracket just opened. -/
theorem traceFits_transfer {f : Frame} (h : ∃ t0, bracketed t0 = true ∧ s.trace = t0 ++ [.select]) :
    ∃ t0 tx n, bracketed t0 = true ∧ (transfer f s).trace = t0 ++ [.select, .transfer tx n] := by
  obtain ⟨t0, h0, ht⟩ := h
  exact ⟨t0, f, s.cfg.xferTimeout, h0, by simp [(transfer_frame f s).1, ht]⟩

/-- R238: an open bracket is closed, with the error of a failed transfer or on the way to a phase `ph` with none open. -/
theorem closeBracket_keeps_inv (h : Sound s) (howed : owesDeselect s.seq = true)
    (hopen : ∃ t0 tx n, bracketed t0 = true ∧ s.trace = t0 ++ [.select, .transfer tx n]) (hph : ph = .sel2 ∨ ph = .done)
    (hl : seqLegal (closeBracket op k ph s).seq = true) : Inv (closeBracket op k ph s) := by
  have hb := bracketed_deselect hopen
  by_cases hok : s.txn.ok = true
  · rw [closeBracket, if_pos hok] at hl ⊢
    obtain rfl | rfl := hph <;>
      exact (sound_deselect h).inv_goto hl hb nofun
  · rw [closeBracket, if_neg hok]
    refine h.inv_raise (by rfl) ?_
    rw [raise_trace_owed _ howed]
    exact hb

/-- R27: the `CHECK` of a command in progress. -/
theorem phaseStep_check_keeps_inv (hinv : Inv s) (hs : s.seq = .run op k .check) (hk : k < subCount i)
    (h : phaseStep i op k .check s = .next t) (hl : seqLegal t.seq = true) : Inv t := by
  have hb : bracketed s.trace = true := by
    have := hinv.events
    rwa [hs] at this
  obtain ⟨r, hr⟩ := subCheck_isSome s hk
  obtain ⟨⟨wrote, hran⟩, hframe, herr⟩ := subCheck_keeps hr
  have hsound := (sound_of_inv hinv).ran hran
  have hb' := bracketed_of_ran hran hb
  simp only [phaseStep, hr] at h
  match r with
  | .err kind u =>
    obtain rfl : raise kind u = t := by simpa using h
    have hseq : u.seq = .run op k .check := hran.seq.trans hs
    have howed : owesDeselect u.seq = false := by rw [hseq]; rfl
    exact hsound.inv_raise (herr kind u rfl) ((congrArg bracketed (raise_trace kind howed)).trans hb')
  | .done false u =>
    obtain rfl : goto op k .done u = t := by simpa using h
    exact hsound.inv_goto hl hb' nofun
  | .done true u =>
    obtain rfl : goto op k .sel1 u = t := by simpa using h
    exact hsound.inv_goto hl hb' fun _ => hframe u rfl

/-- R27, R131: every phase of a command in progress. -/
theorem phaseStep_keeps_inv (hinv : Inv s) (hs : s.seq = .run op k ph) (hk : k < subCount i)
    (hph : phaseLegal (busUse i) ph = true) (h : phaseStep i op k ph s = .next t) (hl : seqLegal t.seq = true) :
    Inv t := by
  have hsound := sound_of_inv hinv
  have hfits := hinv.events
  have hpending := hinv.pending
  rw [hs] at hfits hpending
  cases ph with
  | check => exact phaseStep_check_keeps_inv hinv hs hk h hl
  | sel1 =>
    have hb : busUse i ≠ .none := by obtain hb | hb := legal_firstBracket hph (by simp) <;> simp [hb]
    obtain rfl := Host.Outcome.next.inj ((phaseStep_sel1 hb s).symm.trans h)
    exact (sound_select hsound).inv_goto hl ⟨s.trace, hfits, rfl⟩ fun _ => hpending rfl
  | xfer1 =>
    have hb : busUse i ≠ .none := by obtain hb | hb := legal_firstBracket hph (by simp) <;> simp [hb]
    obtain rfl := Host.Outcome.next.inj ((phaseStep_xfer1 hb s).symm.trans h)
    exact (sound_transfer hsound (hpending rfl)).inv_goto hl (traceFits_transfer hfits) nofun
  | dsel1 =>
    obtain hb | hb := legal_firstBracket hph (by simp)
    · obtain rfl := Host.Outcome.next.inj ((phaseStep_dsel1_write hb s).symm.trans h)
      exact closeBracket_keeps_inv hsound (by rw [hs]; rfl) hfits (.inr rfl) hl
    · obtain rfl := Host.Outcome.next.inj ((phaseStep_dsel1_read hb s).symm.trans h)
      exact closeBracket_keeps_inv hsound (by rw [hs]; rfl) hfits (.inl rfl) hl
  | sel2 =>
    obtain rfl := Host.Outcome.next.inj ((phaseStep_sel2 (legal_secondBracket hph (by simp)) s).symm.trans h)
    exact (sound_select hsound).inv_goto hl ⟨s.trace, hfits, rfl⟩ nofun
  | xfer2 =>
    obtain rfl := Host.Outcome.next.inj ((phaseStep_xfer2 (legal_secondBracket hph (by simp)) s).symm.trans h)
    exact (sound_transfer hsound blockFrame_dummy).inv_goto hl (traceFits_transfer hfits) nofun
  | dsel2 =>
    obtain rfl := Host.Outcome.next.inj ((phaseStep_dsel2 (legal_secondBracket hph (by simp)) s).symm.trans h)
    exact closeBracket_keeps_inv hsound (by rw [hs]; rfl) hfits (.inr rfl) hl
  | done =>
    by_cases hmore : k + 1 < subCount i
    · obtain rfl := Host.Outcome.next.inj ((phaseStep_done_more hmore s).symm.trans h)
      exact hsound.inv_goto hl hfits nofun
    · obtain rfl := Host.Outcome.next.inj ((phaseStep_done_last (by omega) s).symm.trans h)
      exact hsound.inv_succeed hfits (deliver_resultsOnly i s)

/-- R27, R91: one phase of whatever is in progress. -/
theorem advance_keeps_inv (hinv : Inv s) (hs : s.seq = .run op k ph) (h : advance s = .next t) : Inv t := by
  have hlegal := hinv.seqOk
  obtain ⟨t', ht', hl, -⟩ := advance_progress hs hlegal
  obtain rfl : t' = t := Host.Outcome.next.inj (ht'.symm.trans h)
  rw [hs] at hlegal
  cases hi : decodeCommand op with
  | none =>
    obtain ⟨rfl, rfl⟩ := (seqLegal_reserved hi).mp hlegal
    obtain rfl := Host.Outcome.next.inj ((advance_reserved hs hi).symm.trans h)
    refine (sound_of_inv hinv).inv_raise (by rfl) ?_
    have hfits := hinv.events
    rw [hs] at hfits
    rw [raise_trace _ (by rw [hs]; rfl)]
    exact hfits
  | some i =>
    obtain ⟨hk, hph⟩ := (seqLegal_run hi).mp hlegal
    exact phaseStep_keeps_inv hinv hs hk hph ((advance_known hs hi).symm.trans h) hl

end Sys2Proof.Machine
end

section
/-! PROOFS. The invariant (spec/41_communicator.md R131, spec/30_encoding.md R81, spec/10_state.md R27). -/

namespace Sys2Proof.Machine

open Sys2Proof Sys2Proof.Safety

/-- Settles O57: in `IDLE` the host's actions, in `RUN` the phases keep it. -/
theorem stepKeepsInvariant : Obligations.StepKeepsInvariant := by
  intro s t hinv h
  cases hs : s.seq with
  | run op k ph => exact advance_keeps_inv hinv hs ((step_run hs).symm.trans h)
  | idle =>
    cases hh : s.host with
    | nil =>
      obtain rfl : s = t := by simpa [step, hs, hh] using h
      exact hinv
    | cons act rest =>
      have hsound := sound_of_inv hinv
      have hb := bracketed_of_idle hinv hs
      have hinv' : Inv { s with host := rest } := Sound.inv_idle (hsound.congr rfl rfl rfl hsound.errOk) hs hb
      exact perform_keeps_inv hinv' hs ((step_host hs hh).symm.trans h)

end Sys2Proof.Machine
end

section
/-! SUPPORT. The communicator's commands (spec/41_communicator.md R133 to R141): what a body over the two-transaction read ends
with under given answers, `WRITE_FIELD` and the cached `READ_FIELD`, the result of `GET_ACTUAL_VELOCITY`, and how the answers
taken tell how a command ended. -/

namespace Sys2Proof.Machine

open Sys2Proof Sys2Proof.Safety

variable {s t : State} {F : FieldDescriptor} {d : RegisterDescriptor}

/-! ## A body over the two-transaction read (R134) -/

section
variable (r : Addr) (f : Word → State → Reply Unit) {ans1 ans2 : Answer} {rest : List Answer}

/-- R134: a failed first transfer ends the command after one bracket. -/
theorem finish_memRead_failed1 (h : s.answers = ans1 :: rest) (h1 : ans1.ok = false) :
    finish ((memRead r s).andThen f) = raise .transferFailed (afterRead (Frame.readReq r) ans1 rest s) := by
  rw [memRead_failed1 r h h1, andThen_err, finish_err]

/-- R134: a failed second transfer ends it after two. -/
theorem finish_memRead_failed2 (h : s.answers = ans1 :: ans2 :: rest) (h1 : ans1.ok = true) (h2 : ans2.ok = false) :
    finish ((memRead r s).andThen f) = raise .transferFailed
      (afterRead Frame.dummy ans2 rest (afterRead (Frame.readReq r) ans1 (ans2 :: rest) s)) := by
  rw [memRead_cons2 r h h1, if_neg (by simp [h2]), andThen_err, finish_err]

/-- R134: the data of the second answer goes to the rest of the command. -/
theorem finish_memRead_ok (h : s.answers = ans1 :: ans2 :: rest) (h1 : ans1.ok = true) (h2 : ans2.ok = true) :
    finish ((memRead r s).andThen f) = finish (f ans2.rx.word
      (afterRead Frame.dummy ans2 rest (afterRead (Frame.readReq r) ans1 (ans2 :: rest) s))) := by
  rw [memRead_cons2 r h h1, if_pos h2, andThen_done]

end

/-- R23, R27 (c): a word delivered to `RES` in `IDLE`. -/
theorem finish_setRes (x : Word) (h : s.seq = .idle) :
    finish (.done () (setRes x s)) = { s with res := x, resHeld := true, err := 0 } := by
  rw [finish_done () (show (setRes x s).seq = .idle from h)]
  rfl

/-- R139, R141: a successful hardware read, its word or a part of it delivered. -/
theorem finish_memRead_setRes (r : Addr) (g : Word → Word) {ans1 ans2 : Answer} {rest : List Answer} (hs : s.seq = .idle)
    (h : s.answers = ans1 :: ans2 :: rest) (h1 : ans1.ok = true) (h2 : ans2.ok = true) :
    finish ((memRead r s).andThen fun w s => .done () (setRes (g w) s)) =
      { afterRead Frame.dummy ans2 rest (afterRead (Frame.readReq r) ans1 (ans2 :: rest) s) with
        res := g ans2.rx.word, resHeld := true, err := 0 } :=
  (finish_memRead_ok r _ h h1 h2).trans (finish_setRes _ hs)

/-! ## `READ` and `READ_FIELD` -/

theorem hwRead_iff : d.hwRead = true ↔ d.volatile = true ∨ d.access = .readOnly := by
  simp [RegisterDescriptor.hwRead]

theorem exec_read_unknown (hs : s.seq = .idle) (h : findRegister s.cfg.toConfigData s.a = none) :
    exec .read s = .next (raise .invalidParameter s) := by
  simp [exec, execRead, command_idle _ hs, readReg, lookup_none h]

theorem exec_read_hardware (hs : s.seq = .idle) (hd : findRegister s.cfg.toConfigData s.a = some d)
    (hr : d.hwRead = true) :
    exec .read s = .next (finish ((memRead d.address s).andThen fun x s => .done () (setRes x s))) := by
  rw [exec, execRead, command_idle _ hs, readReg_hardware hd hr]

theorem exec_readField_unknown (hs : s.seq = .idle) (h : findField s.cfg.toConfigData s.a = none) :
    exec .readField s = .next (raise .invalidParameter s) := by
  simp [exec, execReadField, command_idle _ hs, readField, field_none h]

/-- R141: the field of whatever the owning register's `read` gives. -/
theorem exec_readField_found (hs : s.seq = .idle) (hF : findField s.cfg.toConfigData s.a = some F) :
    exec .readField s = .next (finish ((readReg (fixedAddr F.reg) s).andThen fun w s =>
      .done () (setRes (fieldExtract F w) s))) := by
  rw [exec, execReadField, command_idle _ hs, readField, field_some hF, andThen_done, andThen_andThen]
  rfl

theorem exec_readField_cached (hs : s.seq = .idle) (hF : findField s.cfg.toConfigData s.a = some F)
    (hd : s.cfg.register? F.reg = some d) (hr : d.hwRead = false) :
    exec .readField s = .next { s with res := fieldExtract F (cacheAt s F.reg), resHeld := true, err := 0 } := by
  rw [exec_readField_found hs hF, readReg_cached (by simpa using hd) hr, andThen_done, finish_setRes _ hs,
    register?_address hd]

theorem exec_readField_hardware (hs : s.seq = .idle) (hF : findField s.cfg.toConfigData s.a = some F)
    (hd : s.cfg.register? F.reg = some d) (hr : d.hwRead = true) :
    exec .readField s = .next (finish ((memRead F.reg s).andThen fun w s =>
      .done () (setRes (fieldExtract F w) s))) := by
  rw [exec_readField_found hs hF, readReg_hardware (by simpa using hd) hr, register?_address hd]

/-! ## `WRITE_FIELD` -/

theorem exec_writeField_unknown (hs : s.seq = .idle) (h : findField s.cfg.toConfigData s.a = none) :
    exec .writeField s = .next (raise .invalidParameter s) := by
  simp [exec, execWriteField, command_idle _ hs, writeField, acceptFieldWrite, field_none h]

/-- R137: a known field's write, whatever the registry allows and the transport answers. -/
theorem exec_writeField_found (hs : s.seq = .idle) (hF : findField s.cfg.toConfigData s.a = some F) :
    exec .writeField s = .next (finish (attempt ⟨F.reg, fieldCompose F (cacheAt s F.reg) s.v, 0⟩ s)) := by
  rw [exec, execWriteField, command_idle _ hs, writeField_attempt _ hF]

/-- R138: the cache entry after `WRITE_FIELD`, its transfer failed or not. -/
theorem cacheAt_of_exec_writeField (hs : s.seq = .idle) (hF : findField s.cfg.toConfigData s.a = some F)
    (hw : writableAt s.cfg.toConfigData F.reg = true) (h : exec .writeField s = .next t) :
    cacheAt t F.reg = fieldCompose F (cacheAt s F.reg) s.v := by
  obtain rfl := Host.Outcome.next.inj ((exec_writeField_found hs hF).symm.trans h)
  exact cacheAt_finish_attempt ⟨F.reg, fieldCompose F (cacheAt s F.reg) s.v, 0⟩ hw

/-! ## The result of `GET_ACTUAL_VELOCITY` (R210) -/

/-- R210: the mask test is a test of bit 23. -/
theorem signExtend24_eq (w : Word) : signExtend24 w = if w.getLsbD 23 then w ||| 0xFF000000 else w := by
  unfold signExtend24
  have hbit : BitVec.twoPow 32 23 ≠ 0#32 := by decide
  rw [show (0x00800000 : Word) = BitVec.twoPow 32 23 by decide, BitVec.and_twoPow]
  cases w.getLsbD 23 <;> simp [hbit]

theorem velocityMagnitude_le (w : Word) : velocityMagnitude w ≤ 2 ^ 31 := by
  have h0 := (signExtend24 w).le_toInt
  have h1 := (signExtend24 w).toInt_lt
  unfold velocityMagnitude
  omega

theorem rpmImage_nonneg (c : Config) (n : Nat) : 0 ≤ rpmImage c.toConfigData n := by
  have hc := clockHz_pos c
  rw [rpmImage_eq, Rat.le_floor_iff]
  push_cast
  positivity

/-- R164, R210: a speed that fits, delivered in `IDLE`. -/
theorem finish_deliverSpeed_fits {n : Nat} (hs : s.seq = .idle) (h : rpmImage s.cfg.toConfigData n < 2 ^ 63) :
    ∃ x : Quad, (x.toNat : Int) = rpmImage s.cfg.toConfigData n ∧
      finish (.done () (deliverSpeed n s)) = { s with qres := x, qresHeld := true, err := 0 } := by
  refine ⟨_, toNat_ofInt64 (rpmImage_nonneg s.cfg n) (by omega), ?_⟩
  simp only [deliverSpeed, speedQuad_fits s h]
  exact finish_done () hs

/-- R164, R210: a speed that does not fit: some bits, and one draw counted. -/
theorem finish_deliverSpeed_free {n : Nat} (hs : s.seq = .idle) (h : 2 ^ 63 ≤ rpmImage s.cfg.toConfigData n) :
    ∃ x : Quad, finish (.done () (deliverSpeed n s)) =
      { s with qres := x, qresHeld := true, err := 0, draws := s.draws + 1 } := by
  refine ⟨Config.freeQuad s.draws, ?_⟩
  simp only [deliverSpeed, speedQuad_free s h]
  exact finish_done () hs

/-- R210: the register is volatile, so its `read` is always the two transactions. -/
theorem exec_getActualVelocity (hs : s.seq = .idle) :
    exec .getActualVelocity s = .next (finish ((memRead s.cfg.regs.vactual s).andThen fun w s =>
      .done () (deliverSpeed (velocityMagnitude w) s))) := by
  obtain ⟨d, hd, hr⟩ := vactual_known s.cfg
  rw [exec, execGetActualVelocity, command_idle _ hs, readReg_hardware (by simpa using hd) hr, register?_address hd]

/-! ## The answers taken (R231) -/

/-- R230: only a failed transfer has code 1. -/
theorem ErrKind.code_eq_one_iff {k : ErrKind} : k.code = 1 ↔ k = .transferFailed := by
  cases k <;> decide

theorem LastFailed.exists_failed {l : List Answer} {n : Nat} (h : LastFailed l n) (hn : n ≤ l.length) :
    ∃ m ans, n = m + 1 ∧ l[m]? = some ans ∧ ans.ok = false := by
  obtain ⟨hpos, -, hf⟩ := h
  have hm : n - 1 < l.length := by omega
  exact ⟨n - 1, l[n - 1], by omega, List.getElem?_eq_getElem hm, hf _ (List.getElem?_eq_getElem hm)⟩

theorem AllOk.not_exists_failed {l : List Answer} {n : Nat} (h : AllOk l n) :
    ¬ ∃ m ans, n = m + 1 ∧ l[m]? = some ans ∧ ans.ok = false := by
  rintro ⟨m, ans, rfl, ha, hf⟩
  simp [h m (by omega) ans ha] at hf

/-- With an answer at hand for each transfer, the answers taken are there to be named. -/
theorem AllOk.exists_ok {l : List Answer} {n j : Nat} (h : AllOk l n) (hj : j < n) (hl : j < l.length) :
    ∃ ans, l[j]? = some ans ∧ ans.ok = true :=
  ⟨l[j], List.getElem?_eq_getElem hl, h j hj _ (List.getElem?_eq_getElem hl)⟩

/-- R191: no transfer follows a failed one. -/
theorem Reply.fits_allOk {α : Type} {r : Reply α} {l : List Answer} {n : Nat} (h : r.fits l n) : AllOk l (n - 1) := by
  have weaken : AllOk l n → AllOk l (n - 1) := fun h j hj => h j (by omega)
  cases r with
  | done x s => exact weaken h
  | err k s =>
    cases k with
    | transferFailed => exact h.2.1
    | _ => exact weaken h

/-- R231: a reply is the error TransferFailed exactly where the last answer taken was a failure. -/
theorem Reply.fits_failed_iff {r : Reply Unit} {l : List Answer} {n : Nat} (h : r.fits l n) (hn : n ≤ l.length) :
    (finish r).err = 1 ↔ ∃ m ans, n = m + 1 ∧ l[m]? = some ans ∧ ans.ok = false := by
  cases r with
  | done x s => exact iff_of_false (by simp [finish]) (AllOk.not_exists_failed h)
  | err k s =>
    rw [finish_err, raise_err, ErrKind.code_eq_one_iff]
    cases k with
    | transferFailed => exact iff_of_true rfl (LastFailed.exists_failed h hn)
    | _ => exact iff_of_false (by simp) (AllOk.not_exists_failed h)

end Sys2Proof.Machine
end

section
/-! PROOFS. The communicator and the reading of the velocity (spec/41_communicator.md R132 to R141,
spec/43_motion_sequencer.md R210). -/

namespace Sys2Proof.Machine

open Sys2Proof Sys2Proof.Safety

/-- Settles O20: both writes leave their composed words in the cache, and composing the second field keeps the first. -/
theorem fieldWritesIndependent : Obligations.FieldWritesIndependent := by
  intro s t u F G d f g x y hs hF hG hreg hdisj hd hw hr ht hu
  obtain ⟨hcfg, -, -, -, -, -, -, -, -, -, hseq⟩ := operandRegistersNeverWritten _ _ t ht
  obtain ⟨hcfg', -, -, -, -, -, -, -, -, -, hseq'⟩ := operandRegistersNeverWritten _ _ u hu
  have hct : cacheAt t F.reg = fieldCompose F (cacheAt s F.reg) x :=
    cacheAt_of_exec_writeField (s := { s with a := f, v := x }) hs hF ((writableAt_of_found hd).trans hw) ht
  have hcu : cacheAt u G.reg = fieldCompose G (cacheAt t G.reg) y := by
    refine cacheAt_of_exec_writeField (s := { t with a := g, v := y }) (hseq.trans hs) ?_ ?_ hu
    · rw [hcfg]
      exact hG
    · rw [hcfg, ← hreg]
      exact (writableAt_of_found hd).trans hw
  have hcfgu : u.cfg = s.cfg := hcfg'.trans hcfg
  refine ⟨_, exec_readField_cached (s := { u with a := f }) (hseq'.trans (hseq.trans hs)) (by rw [hcfgu]; exact hF)
    (by rw [hcfgu]; exact hd) hr, ?_⟩
  have hfitsF := (findField_some s.cfg hF).1
  have hfitsG := (findField_some s.cfg hG).1
  calc (fieldExtract F (cacheAt u F.reg)).toNat
      = (fieldExtract F (fieldCompose G (fieldCompose F (cacheAt s F.reg) x) y)).toNat := by
        rw [hreg, hcu, ← hreg, hct]
    _ = (fieldExtract F (fieldCompose F (cacheAt s F.reg) x)).toNat := by
        rw [fieldExtract_fieldCompose_disjoint hfitsG _ _ hfitsF (by rw [BitVec.and_comm, hdisj])]
    _ = x.toNat % 2 ^ F.width := fieldExtract_fieldCompose hfitsF _ _

/-- Settles O52: every command is a core that ends as its last answer says, then its end, which sends nothing. -/
theorem oneAnswerPerBracket : Obligations.OneAnswerPerBracket := by
  intro i s t hi hs hlen h
  obtain ⟨r, hr, c, ⟨sent, wrote, hran, hsent, -, hfits, -⟩, hc⟩ := exec_command i s hi hs
  obtain rfl : finish r = t := Host.Outcome.next.inj (hr.symm.trans h)
  obtain ⟨htrace, hanswers, herr⟩ : (finish r).trace = c.state.trace ∧ (finish r).answers = c.state.answers ∧
      (finish r).err = (finish c).err := by
    obtain ⟨k, u, rfl, rfl⟩ | ⟨u, v, rfl, rfl, x, hx, y, hy, d, rfl, -⟩ := hc
    · exact ⟨raise_trace k (owesDeselect_idle (hran.seq.trans hs)), raise_answers k u, rfl⟩
    · exact ⟨rfl, rfl, rfl⟩
  refine ⟨sent, hsent, htrace.trans hran.trace, hanswers.trans hran.answers, fun j hj => ?_, ?_⟩
  · exact (Reply.fits_allOk hfits).exists_ok (by omega) (by omega)
  · rw [herr]
    exact Reply.fits_failed_iff hfits (by omega)

/-- Settles O15: a known field's write is one attempt, refused by the registry or answered by the transport. -/
theorem writeFieldCommand : Obligations.WriteFieldCommand := by
  refine ⟨decodeEncodeRoundTrip .writeField rfl, fun s hs => ⟨exec_writeField_unknown hs, fun F hF => ⟨fun hw => ?_, ?_⟩⟩⟩
  · rw [exec_writeField_found hs hF, attempt, if_neg (by simp [hw]), draw_zero, finish_err]
  · intro ans rest ha hw
    have hexec : exec .writeField s = .next (finish (writeField s.a s.v s)) := command_idle _ hs
    rw [hexec, writeField_cons hF hw ha]
    refine ⟨fun hok => ?_, fun hfail => ?_⟩
    · rw [if_pos hok, finish_done () (show (afterWrite _ _ ans rest s).seq = .idle from hs)]
    · rw [if_neg (by simp [hfail]), finish_err]

/-- Settles O16: the registry decides between the cache and the two transactions. -/
theorem readCommand : Obligations.ReadCommand := by
  refine ⟨decodeEncodeRoundTrip .read rfl, fun s hs => ⟨exec_read_unknown hs, fun d hd => ⟨fun hv hacc => ?_, fun hr => ?_⟩⟩⟩
  · exact exec_read_cached hs hd (by simp [RegisterDescriptor.hwRead, hv, hacc])
  · rw [exec_read_hardware hs hd (hwRead_iff.mpr hr)]
    refine ⟨fun ans1 rest ha h1 => ?_, fun ans1 ans2 rest ha h1 h2 => ?_, fun ans1 ans2 rest ha h1 h2 => ?_⟩
    · rw [finish_memRead_failed1 _ _ ha h1]
    · rw [finish_memRead_failed2 _ _ ha h1 h2]
    · exact congrArg Host.Outcome.next (finish_memRead_setRes _ id hs ha h1 h2)

/-- Settles O17: as `READ` of the owning register, the field taken from the word. -/
theorem readFieldCommand : Obligations.ReadFieldCommand := by
  refine ⟨decodeEncodeRoundTrip .readField rfl,
    fun s hs => ⟨exec_readField_unknown hs, fun F d hF hd => ⟨exec_readField_cached hs hF hd, fun hr => ?_⟩⟩⟩
  rw [exec_readField_hardware hs hF hd hr]
  refine ⟨fun ans1 rest ha h1 => ?_, fun ans1 ans2 rest ha h1 h2 => ?_, fun ans1 ans2 rest ha h1 h2 => ?_⟩
  · rw [finish_memRead_failed1 _ _ ha h1]
  · rw [finish_memRead_failed2 _ _ ha h1 h2]
  · exact congrArg Host.Outcome.next (finish_memRead_setRes _ (fieldExtract F) hs ha h1 h2)

/-- Settles O43: the two transactions, then the speed of the word's magnitude, in range or free. -/
theorem getActualVelocityCommand : Obligations.GetActualVelocityCommand := by
  refine ⟨decodeEncodeRoundTrip .getActualVelocity rfl, fun s hs => ?_⟩
  rw [exec_getActualVelocity hs]
  refine ⟨fun ans1 rest ha h1 => ?_, fun ans1 ans2 rest ha h1 h2 => ?_, fun ans1 ans2 rest n m ha h1 h2 hn hm => ?_⟩
  · rw [finish_memRead_failed1 _ _ ha h1]
  · rw [finish_memRead_failed2 _ _ ha h1 h2]
  · rw [← signExtend24_eq] at hn
    obtain rfl : velocityMagnitude ans2.rx.word = n := hn.symm
    rw [← rpmImage_eq] at hm
    subst hm
    rw [finish_memRead_ok _ _ ha h1 h2]
    have hidle : (afterRead Frame.dummy ans2 rest
        (afterRead (Frame.readReq s.cfg.regs.vactual) ans1 (ans2 :: rest) s)).seq = .idle := hs
    refine ⟨velocityMagnitude_le _, fun hfits => ?_, fun hbig => ?_⟩
    · obtain ⟨x, hx, hfin⟩ := finish_deliverSpeed_fits hidle hfits
      exact ⟨x, hx, congrArg _ hfin⟩
    · obtain ⟨x, hfin⟩ := finish_deliverSpeed_free hidle hbig
      exact ⟨x, congrArg _ hfin⟩

end Sys2Proof.Machine
end

section
/-! SUPPORT. The quantity converter (spec/42_converter.md R160 to R172): what clamp and truncation do to an order and
to a threshold, each conversion as a formula in one unit, the current scale over the reals, and the commands' ends. -/

namespace Sys2Proof.Machine

open Sys2Proof Sys2Proof.Safety

variable {s : State}

/-! ## Truncation and clamp -/

theorem trunc_nonpos {x : Rat} (h : x ≤ 0) : trunc x ≤ 0 := by
  simpa using (trunc_mono h).trans_eq (trunc_intCast 0)

/-- R11: above zero, truncation reaches an integer exactly where its operand does. -/
theorem le_trunc_iff {x : Rat} {n : Int} (hn : 0 < n) : n ≤ trunc x ↔ (n : Rat) ≤ x := by
  rcases le_total 0 x with hx | hx
  · rw [trunc_of_nonneg hx, Int.le_floor]
  · have hn' : (0 : Rat) < n := by exact_mod_cast hn
    have := trunc_nonpos hx
    exact iff_of_false (by omega) (by linarith)

section
variable {x y lo hi : Int}

theorem le_clampInt (h : lo ≤ hi) : lo ≤ clampInt x lo hi := by
  rw [clampInt_eq h]
  exact le_max_left _ _

theorem clampInt_le (h : lo ≤ hi) : clampInt x lo hi ≤ hi := by
  rw [clampInt_eq h]
  exact max_le h (min_le_left _ _)

theorem clampInt_mono (h : lo ≤ hi) (hxy : x ≤ y) : clampInt x lo hi ≤ clampInt y lo hi := by
  rw [clampInt_eq h, clampInt_eq h]
  exact max_le_max le_rfl (min_le_min le_rfl hxy)

theorem clampInt_of_le (h : lo ≤ hi) (hx : x ≤ lo) : clampInt x lo hi = lo := by
  rw [clampInt_eq h]
  exact max_eq_left ((min_le_right _ _).trans hx)

theorem clampInt_eq_hi_iff (h : lo < hi) : clampInt x lo hi = hi ↔ hi ≤ x := by
  rw [clampInt_eq h.le]
  omega

end

/-! ## Speed (R162 to R165) -/

/-- R165: the speed of one register unit. -/
def speedUnit (c : ConfigData) : Rat :=
  60 * c.clockHz / (c.fullSteps * 2 ^ 32)

theorem speedUnit_pos (c : Config) : 0 < speedUnit c.toConfigData := by
  have hc := clockHz_pos c
  have hf : (0 : Rat) < c.fullSteps := by exact_mod_cast fullSteps_pos c
  unfold speedUnit
  positivity

theorem vmaxOf_eq (c : Config) (r : Rat) : vmaxOf c.toConfigData r = trunc (r / speedUnit c.toConfigData) := by
  have hc := (clockHz_pos c).ne'
  have hf : (c.fullSteps : Rat) ≠ 0 := by exact_mod_cast (fullSteps_pos c).ne'
  unfold vmaxOf speedUnit
  congr 1
  field_simp
  norm_num

theorem rpmOf_eq (c : Config) (n : Nat) : rpmOf c.toConfigData n = n * speedUnit c.toConfigData := by
  have hf : (c.fullSteps : Rat) ≠ 0 := by exact_mod_cast (fullSteps_pos c).ne'
  unfold rpmOf speedUnit
  field_simp
  norm_num

/-- R162: the conversion to a register value never decreases. -/
theorem vmaxOf_mono (c : Config) {r r' : Rat} (h : r ≤ r') : vmaxOf c.toConfigData r ≤ vmaxOf c.toConfigData r' := by
  rw [vmaxOf_eq, vmaxOf_eq]
  exact trunc_mono (div_le_div_of_nonneg_right h (speedUnit_pos c).le)

/-- R165: a register value's speed converts back to that value. -/
theorem vmaxOf_rpmOf (c : Config) (n : Nat) : vmaxOf c.toConfigData (rpmOf c.toConfigData n) = n := by
  rw [vmaxOf_eq, rpmOf_eq, mul_div_cancel_right₀ _ (speedUnit_pos c).ne']
  exact trunc_intCast n

/-- R162: the register value of a speed at or above zero counts the whole units in it. -/
theorem vmaxOf_toNat (c : Config) {r : Rat} (h : 0 ≤ r) :
    (((vmaxOf c.toConfigData r).toNat : Nat) : Rat) = ⌊r / speedUnit c.toConfigData⌋ := by
  have h0 : 0 ≤ r / speedUnit c.toConfigData := div_nonneg h (speedUnit_pos c).le
  rw [vmaxOf_eq, trunc_of_nonneg h0]
  exact_mod_cast Int.toNat_of_nonneg (Int.floor_nonneg.mpr h0)

/-- R165: the round trip from a speed ends at or below it, less than one unit away. -/
theorem rpmOf_vmaxOf_bounds (c : Config) {r : Rat} (h : 0 ≤ r) :
    r - speedUnit c.toConfigData < rpmOf c.toConfigData (vmaxOf c.toConfigData r).toNat ∧
      rpmOf c.toConfigData (vmaxOf c.toConfigData r).toNat ≤ r := by
  have hu := speedUnit_pos c
  rw [rpmOf_eq, vmaxOf_toNat c h]
  constructor
  · have := (div_lt_iff₀ hu).mp (Int.lt_floor_add_one (r / speedUnit c.toConfigData))
    linarith
  · exact (le_div_iff₀ hu).mp (Int.floor_le _)

/-! ## Current (R166 to R168) -/

/-- R166: `FS_RMS`. -/
noncomputable def fullScaleRms (c : ConfigData) : ℝ :=
  (13 / 40 : ℝ) / (c.rSense : ℝ) / Real.sqrt 2

theorem fullScaleRms_pos (c : Config) : 0 < fullScaleRms c.toConfigData := by
  have hr : (0 : ℝ) < (c.rSense : ℝ) := by exact_mod_cast rSense_pos c
  unfold fullScaleRms
  positivity

/-- R168: the ratio of R167, times 32, is the rational `x` times the square root of two. -/
theorem ratio_eq (c : Config) (amps : Rat) :
    (amps : ℝ) / fullScaleRms c.toConfigData * 32 = ((amps * c.rSense * 32 / (13 / 40) : Rat) : ℝ) * Real.sqrt 2 := by
  have hr : (c.rSense : ℝ) ≠ 0 := by exact_mod_cast (rSense_pos c).ne'
  unfold fullScaleRms
  push_cast
  field_simp

/-- R168: `m^2 <= 2 * x^2` says of the integers what `m <= x * sqrt 2` says over the reals. -/
theorem sq_le_two_mul_sq_iff {x : Rat} (hx : 0 ≤ x) (m : Nat) :
    (m : Rat) ^ 2 ≤ 2 * x ^ 2 ↔ (m : ℝ) ≤ (x : ℝ) * Real.sqrt 2 := by
  have hx' : (0 : ℝ) ≤ (x : ℝ) := by exact_mod_cast hx
  have hsq : ((x : ℝ) * Real.sqrt 2) ^ 2 = 2 * (x : ℝ) ^ 2 := by
    rw [mul_pow, Real.sq_sqrt (by norm_num), mul_comm]
  rw [← sq_le_sq₀ (Nat.cast_nonneg (α := ℝ) m) (by positivity), hsq]
  exact_mod_cast Iff.rfl

/-- R168: the search for the root finds the integer part of `x * sqrt 2`, or its own bound. -/
theorem rootUpTo_eq_floor {x : Rat} (hx : 0 ≤ x) (b : Nat) :
    rootUpTo (2 * x ^ 2) b = min b ⌊(x : ℝ) * Real.sqrt 2⌋₊ := by
  have hx' : (0 : ℝ) ≤ (x : ℝ) * Real.sqrt 2 := mul_nonneg (by exact_mod_cast hx) (Real.sqrt_nonneg 2)
  obtain ⟨hle, hroot, hmax⟩ := rootUpTo_spec (y := 2 * x ^ 2) (by positivity) b
  refine le_antisymm (le_min hle ?_) (hmax _ (min_le_left _ _) ?_)
  · exact Nat.le_floor ((sq_le_two_mul_sq_iff hx _).mp hroot)
  · rw [sq_le_two_mul_sq_iff hx, ← Nat.le_floor_iff hx']
    exact min_le_right _ _

/-- R167: the integer comparison is the formula over the reals. -/
theorem csOf_eq (c : Config) (amps : Rat) :
    csOf c.toConfigData amps = max 0 (min 31 ⌊(amps : ℝ) / fullScaleRms c.toConfigData * 32 - 1⌋) := by
  rw [ratio_eq, Int.floor_sub_one]
  unfold csOf
  simp only
  generalize amps * c.rSense * 32 / (13 / 40) = x
  split
  · rename_i hx
    have hprod : (x : ℝ) * Real.sqrt 2 ≤ 0 :=
      mul_nonpos_of_nonpos_of_nonneg (by exact_mod_cast hx) (Real.sqrt_nonneg 2)
    have := Int.floor_nonpos hprod
    omega
  · rename_i hx
    have hx0 : 0 ≤ x := (not_le.mp hx).le
    have hprod : (0 : ℝ) ≤ (x : ℝ) * Real.sqrt 2 := mul_nonneg (by exact_mod_cast hx0) (Real.sqrt_nonneg 2)
    rw [rootUpTo_eq_floor hx0, clampInt_eq (by norm_num), Nat.cast_min, Int.natCast_floor_eq_floor hprod]
    omega

theorem csOf_nonneg (c : Config) (x : Rat) : 0 ≤ csOf c.toConfigData x := by
  rw [csOf_eq]
  exact le_max_left _ _

theorem csOf_le (c : Config) (x : Rat) : csOf c.toConfigData x ≤ 31 := by
  rw [csOf_eq]
  exact max_le (by norm_num) (min_le_left _ _)

theorem csOf_mono (c : Config) {x y : Rat} (h : x ≤ y) : csOf c.toConfigData x ≤ csOf c.toConfigData y := by
  have hfs := fullScaleRms_pos c
  have hxy : (x : ℝ) ≤ (y : ℝ) := by exact_mod_cast h
  rw [csOf_eq, csOf_eq]
  gcongr

/-- R167: no current, no scale. -/
theorem csOf_of_nonpos (c : Config) {x : Rat} (h : x ≤ 0) : csOf c.toConfigData x = 0 := by
  have hx : (x : ℝ) ≤ 0 := by exact_mod_cast h
  have hratio := div_nonpos_of_nonpos_of_nonneg hx (fullScaleRms_pos c).le
  have : ⌊(x : ℝ) / fullScaleRms c.toConfigData * 32 - 1⌋ ≤ 0 := Int.floor_nonpos (by linarith)
  rw [csOf_eq]
  omega

/-- R167: at and above full scale the ratio is at least 1. -/
theorem csOf_of_fullScaleRms_le (c : Config) {x : Rat} (h : fullScaleRms c.toConfigData ≤ (x : ℝ)) :
    csOf c.toConfigData x = 31 := by
  have hratio : 1 ≤ (x : ℝ) / fullScaleRms c.toConfigData := (one_le_div (fullScaleRms_pos c)).mpr h
  have : 31 ≤ ⌊(x : ℝ) / fullScaleRms c.toConfigData * 32 - 1⌋ := by
    rw [Int.le_floor]
    push_cast
    linarith
  rw [csOf_eq]
  omega

/-! ## Acceleration and duration (R169 to R172) -/

section
variable (c : Config)

theorem one_le_aregOf (x : Rat) : 1 ≤ aregOf c.toConfigData x := le_clampInt (by norm_num)

theorem aregOf_le (x : Rat) : aregOf c.toConfigData x ≤ 65535 := clampInt_le (by norm_num)

theorem aregOf_mono {x y : Rat} (h : x ≤ y) : aregOf c.toConfigData x ≤ aregOf c.toConfigData y := by
  have hc := clockHz_pos c
  refine clampInt_mono (by norm_num) (trunc_mono ?_)
  gcongr

/-- R169: an acceleration at or below zero has the least value that can be encoded. -/
theorem aregOf_of_nonpos {x : Rat} (h : x ≤ 0) : aregOf c.toConfigData x = 1 := by
  refine clampInt_of_le (by norm_num) ((trunc_nonpos ?_).trans (by norm_num))
  exact div_nonpos_of_nonpos_of_nonneg (mul_nonpos_of_nonpos_of_nonneg h (by norm_num)) (sq_nonneg _)

/-- R170: the clamp above is reached exactly where the formula reaches it. -/
theorem aregOf_eq_max_iff (x : Rat) : aregOf c.toConfigData x = 65535 ↔ 65535 * c.clockHz ^ 2 / 2 ^ 41 ≤ x := by
  have hc := clockHz_pos c
  rw [aregOf, clampInt_eq_hi_iff (by norm_num), le_trunc_iff (by norm_num), le_div_iff₀ (by positivity),
    div_le_iff₀ (by positivity)]
  norm_num

/-- R169 at the port: the quantity's 32 fraction bits cancel against the formula's factor. -/
theorem aregOf_quantity (q : Quad) :
    aregOf c.toConfigData (quantity q) = max 1 (min 65535 (trunc ((q.toInt : Rat) * 2 ^ 9 / c.clockHz ^ 2))) := by
  rw [aregOf, clampInt_eq (by norm_num), quantity]
  congr 4
  ring

theorem tzwOf_nonneg (x : Rat) : 0 ≤ tzwOf c.toConfigData x := le_clampInt (by norm_num)

theorem tzwOf_le (x : Rat) : tzwOf c.toConfigData x ≤ 65535 := clampInt_le (by norm_num)

theorem tzwOf_mono {x y : Rat} (h : x ≤ y) : tzwOf c.toConfigData x ≤ tzwOf c.toConfigData y := by
  have hc := clockHz_pos c
  refine clampInt_mono (by norm_num) (trunc_mono ?_)
  gcongr

/-- R171: no duration, no wait. -/
theorem tzwOf_of_nonpos {x : Rat} (h : x ≤ 0) : tzwOf c.toConfigData x = 0 := by
  refine clampInt_of_le (by norm_num) (trunc_nonpos ?_)
  exact div_nonpos_of_nonpos_of_nonneg (mul_nonpos_of_nonpos_of_nonneg h (clockHz_pos c).le) (by norm_num)

/-- R172: the clamp above is reached exactly where the formula reaches it. -/
theorem tzwOf_eq_max_iff (x : Rat) : tzwOf c.toConfigData x = 65535 ↔ 65535 * 2 ^ 9 / c.clockHz ≤ x := by
  have hc := clockHz_pos c
  rw [tzwOf, clampInt_eq_hi_iff (by norm_num), le_trunc_iff (by norm_num), le_div_iff₀ (by positivity),
    div_le_iff₀ hc]
  norm_num

/-- R171 at the port: the quantity's 32 fraction bits join the formula's divisor. -/
theorem tzwOf_quantity (q : Quad) :
    tzwOf c.toConfigData (quantity q) = max 0 (min 65535 (trunc ((q.toInt : Rat) * c.clockHz / 2 ^ 41))) := by
  rw [tzwOf, clampInt_eq (by norm_num), quantity]
  congr 3
  ring

end

/-- R22: a quantity is at or below zero where its image is. -/
theorem quantity_nonpos {q : Quad} (h : q.toInt ≤ 0) : quantity q ≤ 0 :=
  div_nonpos_of_nonpos_of_nonneg (by exact_mod_cast h) (by norm_num)

/-! ## The commands -/

/-- R161, R23: a conversion whose integer fits a word delivers it to `RES`, and nothing else changes but `ERR`. -/
theorem command_setRes_ofInt (hs : s.seq = .idle) (f : State → Int) (h0 : 0 ≤ f s) (h1 : f s < 2 ^ 32) :
    ∃ x : Word, (x.toNat : Int) = f s ∧ command (fun s => .done () (setRes (BitVec.ofInt 32 (f s)) s)) s =
      .next { s with res := x, resHeld := true, err := 0 } :=
  ⟨_, toNat_ofInt32 h0 h1, (command_idle _ hs).trans (congrArg _ (finish_setRes _ hs))⟩

/-- R163: `RPM_TO_VMAX` of a speed out of range delivers a free word. -/
theorem exec_rpmToVmax_free (hs : s.seq = .idle)
    (h : vmaxOf s.cfg.toConfigData (quantity s.q0) < 0 ∨ 2 ^ 32 ≤ vmaxOf s.cfg.toConfigData (quantity s.q0)) :
    exec .rpmToVmax s =
      .next { s with res := Config.freeWord s.draws, resHeld := true, err := 0, draws := s.draws + 1 } := by
  simp only [exec, execRpmToVmax, command_idle _ hs, deliverVelocity, velocityWord_free s h]
  exact congrArg _ (finish_setRes _ hs)

section
variable {ans1 ans2 ans3 : Answer} {rest : List Answer}

/-- R163, R193: `ROTATE` of a magnitude out of range writes a free word after the mode. -/
theorem exec_rotate_free (hs : s.seq = .idle) (ha : s.answers = ans1 :: ans2 :: rest) (h1 : ans1.ok = true)
    (h2 : ans2.ok = true) (h : 2 ^ 32 ≤ vmaxOf s.cfg.toConfigData |quantity s.q0|)
    (hmode : writableAt s.cfg.toConfigData s.cfg.regs.rampmode = true)
    (hvmax : writableAt s.cfg.toConfigData s.cfg.regs.vmax = true) :
    exec .rotate s = .next
      { afterWrite s.cfg.regs.vmax (Config.freeWord s.draws) ans2 rest
          (afterWrite s.cfg.regs.rampmode (if s.q0.toInt ≥ 0 then 1 else 2) ans1 (ans2 :: rest) s) with
        err := 0, draws := s.draws + 1 } := by
  rw [exec, execRotate, command_idle _ hs, writeRole_cons hmode ha, if_pos h1, next_done, afterWrite_q0,
    rotateMode_quantity, writeSpeed_free (s := afterWrite _ _ _ _ s) (Or.inr h) hvmax rfl, if_pos h2]
  exact congrArg _ (finish_done () hs)

/-- R27 (c), R191: a command whose last sub-operation is a write to a role register, answered `ok`. -/
theorem finish_writeRole_ok {role : RegisterRoles → Addr} {v : Word} (hs : s.seq = .idle)
    (hw : writableAt s.cfg.toConfigData (role s.cfg.regs) = true) (ha : s.answers = ans1 :: rest) (h1 : ans1.ok = true) :
    finish (writeRole role v s) = { afterWrite (role s.cfg.regs) v ans1 rest s with err := 0 } := by
  rw [writeRole_cons hw ha, if_pos h1]
  exact finish_done () hs

/-- R163, R195: `MOVE_TO` with a speed out of range writes a free word between the mode and the target. -/
theorem exec_moveTo_free (hs : s.seq = .idle) (ha : s.answers = ans1 :: ans2 :: ans3 :: rest) (h1 : ans1.ok = true)
    (h2 : ans2.ok = true) (h3 : ans3.ok = true)
    (h : vmaxOf s.cfg.toConfigData (quantity s.q0) < 0 ∨ 2 ^ 32 ≤ vmaxOf s.cfg.toConfigData (quantity s.q0))
    (hmode : writableAt s.cfg.toConfigData s.cfg.regs.rampmode = true)
    (hspeed : writableAt s.cfg.toConfigData s.cfg.regs.startSpeed = true)
    (htarget : writableAt s.cfg.toConfigData s.cfg.regs.xtarget = true) :
    exec .moveTo s = .next
      { afterWrite s.cfg.regs.xtarget s.v ans3 rest
          (afterWrite s.cfg.regs.startSpeed (Config.freeWord s.draws) ans2 (ans3 :: rest)
            (afterWrite s.cfg.regs.rampmode 0 ans1 (ans2 :: ans3 :: rest) s)) with
        err := 0, draws := s.draws + 1 } := by
  rw [exec, execMoveTo, command_idle _ hs, writeRole_cons hmode ha, if_pos h1, next_done,
    afterWrite_q0, writeSpeed_free (s := afterWrite _ _ _ _ s) h hspeed rfl, if_pos h2, next_done]
  exact congrArg Host.Outcome.next (finish_writeRole_ok (role := RegisterRoles.xtarget) (v := s.v) hs htarget rfl h3)

end

end Sys2Proof.Machine
end

section
/-! PROOFS. The quantity converter (spec/42_converter.md R162 to R172). -/

namespace Sys2Proof.Machine

open Sys2Proof Sys2Proof.Safety

/-- Settles O24: both conversions are by one unit, and truncation loses less than one of it. -/
theorem speedRoundTrip : Obligations.SpeedRoundTrip :=
  fun c => ⟨fun _ => rpmOf_vmaxOf_bounds c, vmaxOf_rpmOf c, fun _ _ => vmaxOf_mono c⟩

/-- Settles O25: over the integers, `m^2 <= 2 * x^2` is `m <= x * sqrt 2`. -/
theorem currentScaleIsRealFormula : Obligations.CurrentScaleIsRealFormula := by
  refine ⟨decodeEncodeRoundTrip .currentToCs rfl, csOf_eq, fun s hs => ?_⟩
  have hle := csOf_le s.cfg (quantity s.q0)
  exact command_setRes_ofInt hs (fun s => csOf s.cfg.toConfigData (quantity s.q0)) (csOf_nonneg _ _) (by omega)

/-- Settles O26: read off the formula over the reals. -/
theorem currentScaleProperties : Obligations.CurrentScaleProperties :=
  fun c => ⟨fun x => ⟨csOf_nonneg c x, csOf_le c x⟩, fun _ _ => csOf_mono c, fun _ => csOf_of_nonpos c,
    fun _ => csOf_of_fullScaleRms_le c⟩

/-- Settles O29: the clamp gives the ranges, and truncation reaches 65535 exactly where the formula does. -/
theorem clampedConverterProperties : Obligations.ClampedConverterProperties :=
  fun c => ⟨fun x => ⟨one_le_aregOf c x, aregOf_le c x⟩, fun _ _ => aregOf_mono c, aregOf_of_nonpos c le_rfl,
    aregOf_eq_max_iff c, fun x => ⟨tzwOf_nonneg c x, tzwOf_le c x⟩, fun _ _ => tzwOf_mono c, tzwOf_of_nonpos c le_rfl,
    tzwOf_eq_max_iff c⟩

/-- Settles O27: the port form is the conversion of the operand's quantity. -/
theorem accelToRegisterCommand : Obligations.AccelToRegisterCommand := by
  refine ⟨decodeEncodeRoundTrip .accelToRegister rfl, fun s n hs hn => ?_⟩
  obtain rfl : n = aregOf s.cfg.toConfigData (quantity s.q0) := hn.trans (aregOf_quantity s.cfg s.q0).symm
  refine ⟨?_, fun hq => aregOf_of_nonpos s.cfg (quantity_nonpos hq)⟩
  have hlow := one_le_aregOf s.cfg (quantity s.q0)
  have hhigh := aregOf_le s.cfg (quantity s.q0)
  exact command_setRes_ofInt hs (fun s => aregOf s.cfg.toConfigData (quantity s.q0)) (by omega) (by omega)

/-- Settles O28: the port form is the conversion of the operand's quantity. -/
theorem durationToTzerowaitCommand : Obligations.DurationToTzerowaitCommand := by
  refine ⟨decodeEncodeRoundTrip .durationToTzerowait rfl, fun s n hs hn => ?_⟩
  obtain rfl : n = tzwOf s.cfg.toConfigData (quantity s.q0) := hn.trans (tzwOf_quantity s.cfg s.q0).symm
  refine ⟨?_, fun hq => tzwOf_of_nonpos s.cfg (quantity_nonpos hq)⟩
  have hhigh := tzwOf_le s.cfg (quantity s.q0)
  exact command_setRes_ofInt hs (fun s => tzwOf s.cfg.toConfigData (quantity s.q0)) (tzwOf_nonneg _ _) (by omega)

/-- Settles O32: a speed out of range becomes the free word of the next draw, and the command runs on. -/
theorem outOfRangeSpeedStillCompletes : Obligations.OutOfRangeSpeedStillCompletes := by
  intro s hs
  refine ⟨fun h => ⟨_, exec_rpmToVmax_free hs h⟩, fun ans1 ans2 ans3 rest ha h1 h2 h3 => ⟨?_, ?_⟩⟩
  · exact fun h hmode hvmax => ⟨_, exec_rotate_free hs ha h1 h2 h hmode hvmax⟩
  · exact fun h hmode hspeed htarget => ⟨_, exec_moveTo_free hs ha h1 h2 h3 h hmode hspeed htarget⟩

end Sys2Proof.Machine
end

section
/-! SUPPORT. The motion sequencer's commands as their writes in order (spec/43_motion_sequencer.md R190 to R209): what a planned
sequence ends with under given answers, what it leaves in the cache, and the sequence that each command is. -/

namespace Sys2Proof.Machine

open Sys2Proof Sys2Proof.Safety

variable {s t : State}

/-! ## Planned sequences under given answers -/

section
variable {r : Addr} {x : Word} {w : PlannedWrite} {more : List PlannedWrite} {ans : Answer} {rest : List Answer}

/-- R136, R191: a ReadOnly register ends the command with none of its write done. -/
theorem writeSequence_refused (hw : writableAt s.cfg.toConfigData r = false) :
    writeSequence (⟨r, x, 0⟩ :: more) s = raise .invalidParameter s := by
  rw [writeSequence, if_neg (by simp [hw]), draw_zero]

theorem afterAnswered_cons (ha : s.answers = ans :: rest) : afterAnswered r x s = afterWrite r x ans rest s := by
  simp [afterAnswered, ha]

/-- R191: after a successful transfer the rest follows. -/
theorem writeSequence_ok (hw : writableAt s.cfg.toConfigData r = true) (ha : s.answers = ans :: rest)
    (hok : ans.ok = true) :
    writeSequence (⟨r, x, 0⟩ :: more) s = writeSequence more (afterWrite r x ans rest s) := by
  simp [writeSequence, hw, afterAnswered_cons ha, hok]

/-- R191, R233 (c): a failed transfer ends the command, its cache entry standing. -/
theorem writeSequence_failed (hw : writableAt s.cfg.toConfigData r = true) (ha : s.answers = ans :: rest)
    (hfail : ans.ok = false) :
    writeSequence (⟨r, x, 0⟩ :: more) s = raise .transferFailed (afterWrite r x ans rest s) := by
  simp [writeSequence, hw, afterAnswered_cons ha, hfail]

/-- R191, R233: every way a command of one write ends. -/
theorem singleWrite_ends {o : Host.Outcome State Fault Refusal} (ho : o = .next (writeSequence [⟨r, x, 0⟩] s)) :
    (writableAt s.cfg.toConfigData r = false → o = .next (raise .invalidParameter s)) ∧
      ∀ ans rest, s.answers = ans :: rest → writableAt s.cfg.toConfigData r = true →
        (ans.ok = true → o = .next { afterWrite r x ans rest s with err := 0 }) ∧
          (ans.ok = false → o = .next (raise .transferFailed (afterWrite r x ans rest s))) := by
  subst ho
  refine ⟨fun hw => congrArg _ (writeSequence_refused hw), fun ans rest ha hw => ⟨fun hok => ?_, fun hfail => ?_⟩⟩
  · exact congrArg _ (writeSequence_ok hw ha hok)
  · exact congrArg _ (writeSequence_failed hw ha hfail)

/-- R27, R191: two writes, both answered `ok`. -/
theorem writeSequence_pair_ok {r' : Addr} {x' : Word} {ans' : Answer} (hw : writableAt s.cfg.toConfigData r = true)
    (hw' : writableAt s.cfg.toConfigData r' = true) (ha : s.answers = ans :: ans' :: rest) (hok : ans.ok = true)
    (hok' : ans'.ok = true) :
    writeSequence [⟨r, x, 0⟩, ⟨r', x', 0⟩] s =
      { afterWrite r' x' ans' rest (afterWrite r x ans (ans' :: rest) s) with err := 0 } :=
  (writeSequence_ok hw ha hok).trans (writeSequence_ok (s := afterWrite r x ans (ans' :: rest) s) hw' rfl hok')

/-! ## The cache after a planned sequence -/

/-- R191: one write at the head of a sequence: the rest runs on the written cache entry, or the sequence ends there, with the
entry written where the register may be. -/
theorem writeSequence_cons_cases (w : PlannedWrite) (more : List PlannedWrite) (s : State) :
    (writableAt s.cfg.toConfigData w.reg = true ∧
      (writeSequence (w :: more) s = writeSequence more (afterAnswered w.reg w.word (w.draw s)) ∨
        writeSequence (w :: more) s = raise .transferFailed (afterAnswered w.reg w.word (w.draw s)))) ∨
    (writableAt s.cfg.toConfigData w.reg = false ∧ writeSequence (w :: more) s = raise .invalidParameter (w.draw s)) := by
  rw [writeSequence]
  by_cases hw : writableAt s.cfg.toConfigData w.reg = true
  · rw [if_pos hw]
    refine .inl ⟨hw, ?_⟩
    by_cases hok : (afterAnswered w.reg w.word (w.draw s)).txn.ok = true
    · exact .inl (if_pos hok)
    · exact .inr (if_neg hok)
  · exact .inr ⟨by simpa using hw, if_neg hw⟩

theorem cacheAt_afterAnswered_ne {a : Addr} (x : Word) (s : State) (h : a ≠ r) :
    cacheAt (afterAnswered r x s) a = cacheAt s a :=
  (cacheAt_congr (afterAnswered_cache s r x) a).trans (cacheAt_setCache_ne s x h)

/-- R35: a sequence leaves the entries of the registers it does not name. -/
theorem cacheAt_writeSequence_ne {a : Addr} (ws : List PlannedWrite) (h : ∀ w ∈ ws, a ≠ w.reg) (s : State) :
    cacheAt (writeSequence ws s) a = cacheAt s a := by
  induction ws generalizing s with
  | nil => rfl
  | cons w more ih =>
    obtain ⟨hhead, hmore⟩ := List.forall_mem_cons.mp h
    have hentry : cacheAt (afterAnswered w.reg w.word (w.draw s)) a = cacheAt s a :=
      cacheAt_afterAnswered_ne w.word (w.draw s) hhead
    obtain ⟨-, hrest | hfail⟩ | ⟨-, hrefused⟩ := writeSequence_cons_cases w more s
    · rw [hrest, ih hmore, hentry]
    · rw [hfail, cacheAt_congr (raise_cache _ _), hentry]
    · rw [hrefused, cacheAt_congr (raise_cache _ _)]
      rfl

/-- R233 (c): the first write's cache entry stands however the sequence ends. -/
theorem cacheAt_writeSequence_head (hw : writableAt s.cfg.toConfigData w.reg = true) (h : ∀ w' ∈ more, w.reg ≠ w'.reg) :
    cacheAt (writeSequence (w :: more) s) w.reg = w.word := by
  obtain ⟨-, hrest | hfail⟩ | ⟨hw', -⟩ := writeSequence_cons_cases w more s
  · rw [hrest, cacheAt_writeSequence_ne more h, cacheAt_afterAnswered_self]
  · rw [hfail, cacheAt_congr (raise_cache _ _), cacheAt_afterAnswered_self]
  · simp [hw] at hw'

end

/-! ## Role fields -/

/-- A role's property holds of the field that is found for it. -/
theorem of_field_role {o : Option FieldDescriptor} {P : FieldDescriptor → Prop} {F : FieldDescriptor}
    (h : ∃ G, o = some G ∧ P G) (hF : o = some F) : P F := by
  obtain ⟨G, hG, hP⟩ := h
  rwa [← Option.some.inj (hG.symm.trans hF)]

/-! ## Commands of one write -/

/-- R192. -/
theorem exec_stop_sequence (hs : s.seq = .idle) : exec .stop s = .next (writeSequence [⟨s.cfg.regs.vmax, 0, 0⟩] s) := by
  rw [exec, execStop, command_idle _ hs, writeRole_attempt _ (by simp [ConfigData.roleAddresses]), finish_attempt _ hs]

/-- R197. -/
theorem exec_setGlobalScaling_sequence (hs : s.seq = .idle) :
    exec .setGlobalScaling s =
      .next (writeSequence [⟨s.cfg.regs.globalScaler, BitVec.ofInt 32 (globalScale (quantity s.q0)), 0⟩] s) := by
  rw [exec, execSetGlobalScaling, command_idle _ hs, writeRole_attempt _ (by simp [ConfigData.roleAddresses]),
    finish_attempt _ hs]

section
variable {F G : FieldDescriptor} {x : Word}

/-- R203, R204: the scale of `Q0` written to a role field, whatever the registry allows and the transport answers. -/
theorem writeCurrent_attempt {role : FieldRoles → Word} (hx : (x.toNat : Int) = csOf s.cfg.toConfigData (quantity s.q0))
    (hF : findField s.cfg.toConfigData (role s.cfg.roleFields) = some F) :
    writeCurrent role s = attempt ⟨F.reg, fieldCompose F (cacheAt s F.reg) x, 0⟩ s := by
  rw [writeCurrent, ofInt_of_toNat hx, writeField_attempt x hF]

/-- R203. -/
theorem exec_setIrun_sequence (hs : s.seq = .idle)
    (hF : findField s.cfg.toConfigData s.cfg.roleFields.irun = some F)
    (hx : (x.toNat : Int) = csOf s.cfg.toConfigData (quantity s.q0)) :
    exec .setIrun s = .next (writeSequence [⟨F.reg, fieldCompose F (cacheAt s F.reg) x, 0⟩] s) := by
  rw [exec, execSetIrun, command_idle _ hs, writeCurrent_attempt hx hF, finish_attempt _ hs]

/-- R207. -/
theorem exec_setStealthChop_sequence (hs : s.seq = .idle)
    (hF : findField s.cfg.toConfigData s.cfg.roleFields.stealth = some F) :
    exec .setStealthChop s = .next (writeSequence
      [⟨F.reg, fieldCompose F (cacheAt s F.reg) (if s.v.getLsbD 0 then 1 else 0), 0⟩] s) := by
  rw [exec, execSetStealthChop, command_idle _ hs, flagOf_eq, writeField_attempt _ hF, finish_attempt _ hs]

/-! ## Commands of several writes -/

/-- R204: the second field is composed on the word the first write leaves in the cache. -/
theorem exec_setIhold_sequence (hs : s.seq = .idle)
    (hF : findField s.cfg.toConfigData s.cfg.roleFields.ihold = some F)
    (hG : findField s.cfg.toConfigData s.cfg.roleFields.iholddelay = some G)
    (hx : (x.toNat : Int) = csOf s.cfg.toConfigData (quantity s.q0)) :
    exec .setIhold s = .next (writeSequence
      [⟨s.cfg.regs.current, fieldCompose F (cacheAt s s.cfg.regs.current) x, 0⟩,
        ⟨s.cfg.regs.current, fieldCompose G (fieldCompose F (cacheAt s s.cfg.regs.current) x) s.cfg.iholddelayDefault, 0⟩]
      s) := by
  have hFreg : F.reg = s.cfg.regs.current := of_field_role (ihold_role s.cfg) hF
  have hGreg : G.reg = s.cfg.regs.current := of_field_role (iholddelay_role s.cfg) hG
  rw [exec, execSetIhold, command_idle _ hs, writeCurrent_attempt hx hF, hFreg]
  refine congrArg _ (finish_attempt_next _ _ _ ?_)
  simp only [draw_zero, afterAnswered_cfg]
  rw [writeField_attempt _ (by simpa using hG), hGreg, cacheAt_afterAnswered_self, finish_attempt _ (by simpa using hs)]

end

/-- R162, R163: the planned write of a speed: its register word in range, else the free word of the next draw. -/
def speedWrite (r : Addr) (rpm : Rat) (s : State) : PlannedWrite :=
  if 0 ≤ vmaxOf s.cfg.toConfigData rpm ∧ vmaxOf s.cfg.toConfigData rpm < 2 ^ 32 then
    ⟨r, BitVec.ofInt 32 (vmaxOf s.cfg.toConfigData rpm), 0⟩
  else ⟨r, Config.freeWord s.draws, 1⟩

section
variable (r : Addr) {rpm : Rat}

@[simp] theorem speedWrite_reg (rpm : Rat) (s : State) : (speedWrite r rpm s).reg = r := by
  unfold speedWrite
  split <;> rfl

theorem speedWrite_fits {x : Word} (hx : (x.toNat : Int) = vmaxOf s.cfg.toConfigData rpm) :
    speedWrite r rpm s = ⟨r, x, 0⟩ := by
  have hlt := x.isLt
  rw [speedWrite, if_pos (by omega), ofInt_of_toNat hx]

theorem speedWrite_free (hx : vmaxOf s.cfg.toConfigData rpm < 0 ∨ 2 ^ 32 ≤ vmaxOf s.cfg.toConfigData rpm) :
    speedWrite r rpm s = ⟨r, Config.freeWord s.draws, 1⟩ :=
  if_neg (by omega)

end

/-- R193, R195: a speed's write to a role register, in range or not. -/
theorem writeSpeed_attempt_speedWrite {role : RegisterRoles → Addr} (rpm : Rat)
    (h : role s.cfg.regs ∈ s.cfg.roleAddresses) :
    writeSpeed role rpm s = attempt (speedWrite (role s.cfg.regs) rpm s) s := by
  by_cases hx : vmaxOf s.cfg.toConfigData rpm < 0 ∨ 2 ^ 32 ≤ vmaxOf s.cfg.toConfigData rpm
  · rw [writeSpeed_attempt_free hx h, speedWrite_free _ hx]
  · have hword := toNat_ofInt32 (n := vmaxOf s.cfg.toConfigData rpm) (by omega) (by omega)
    rw [writeSpeed_attempt _ hword h, speedWrite_fits _ hword]

/-- R193: the mode, then the magnitude. -/
theorem exec_rotate_sequence (hs : s.seq = .idle) :
    exec .rotate s = .next (writeSequence
      [⟨s.cfg.regs.rampmode, if s.q0.toInt ≥ 0 then 1 else 2, 0⟩,
        speedWrite s.cfg.regs.vmax |quantity s.q0|
          (afterAnswered s.cfg.regs.rampmode (if s.q0.toInt ≥ 0 then 1 else 2) s)] s) := by
  rw [exec, execRotate, command_idle _ hs, writeRole_attempt _ (by simp [ConfigData.roleAddresses]), rotateMode_quantity]
  refine congrArg _ (finish_attempt_next _ _ _ ?_)
  rw [draw_zero, afterAnswered_q0, writeSpeed_attempt_speedWrite _ (by simp [ConfigData.roleAddresses]),
    afterAnswered_cfg, finish_attempt _ (by simpa using hs)]

/-- R195: the mode, then the speed, then the target. -/
theorem exec_moveTo_sequence (hs : s.seq = .idle) :
    exec .moveTo s = .next (writeSequence
      [⟨s.cfg.regs.rampmode, 0, 0⟩,
        speedWrite s.cfg.regs.startSpeed (quantity s.q0) (afterAnswered s.cfg.regs.rampmode 0 s),
        ⟨s.cfg.regs.xtarget, s.v, 0⟩] s) := by
  rw [exec, execMoveTo, command_idle _ hs, writeRole_attempt _ (by simp [ConfigData.roleAddresses]), rampPositioning]
  refine congrArg _ (finish_attempt_next _ _ _ ?_)
  rw [draw_zero, afterAnswered_q0, writeSpeed_attempt_speedWrite _ (by simp [ConfigData.roleAddresses]),
    afterAnswered_cfg]
  refine finish_attempt_next _ _ _ ?_
  rw [writeRole_attempt _ (by simp [ConfigData.roleAddresses]), finish_attempt _ (by simpa using hs)]
  simp

section
variable {x1 x2 x3 x4 : Word} {p1 p2 p3 p4 : State → Quad}

/-- R199, R200: the four accelerations, each from an operand that no write changes. -/
theorem finish_accelWrites (hs : s.seq = .idle)
    (hp : ∀ p ∈ [p1, p2, p3, p4], ∀ r x s, p (afterAnswered r x s) = p s)
    (h1 : (x1.toNat : Int) = aregOf s.cfg.toConfigData (quantity (p1 s)))
    (h2 : (x2.toNat : Int) = aregOf s.cfg.toConfigData (quantity (p2 s)))
    (h3 : (x3.toNat : Int) = aregOf s.cfg.toConfigData (quantity (p3 s)))
    (h4 : (x4.toNat : Int) = aregOf s.cfg.toConfigData (quantity (p4 s))) :
    finish ((writeAccel RegisterRoles.a1 (p1 s) s).next fun s =>
      (writeAccel RegisterRoles.amax (p2 s) s).next fun s =>
        (writeAccel RegisterRoles.dmax (p3 s) s).next fun s => writeAccel RegisterRoles.d1 (p4 s) s) =
      writeSequence
        [⟨s.cfg.regs.a1, x1, 0⟩, ⟨s.cfg.regs.amax, x2, 0⟩, ⟨s.cfg.regs.dmax, x3, 0⟩, ⟨s.cfg.regs.d1, x4, 0⟩] s := by
  simp only [List.forall_mem_cons, List.not_mem_nil, false_imp_iff, implies_true, and_true] at hp
  obtain ⟨-, hp2, hp3, hp4⟩ := hp
  rw [writeAccel_attempt x1 h1 (by simp [ConfigData.roleAddresses])]
  refine finish_attempt_next _ _ _ ?_
  rw [draw_zero, hp2, writeAccel_attempt x2 (by simpa using h2) (by simp [ConfigData.roleAddresses]), afterAnswered_cfg]
  refine finish_attempt_next _ _ _ ?_
  rw [draw_zero, hp3, hp3, writeAccel_attempt x3 (by simpa using h3) (by simp [ConfigData.roleAddresses]),
    afterAnswered_cfg, afterAnswered_cfg]
  refine finish_attempt_next _ _ _ ?_
  rw [draw_zero, hp4, hp4, hp4, writeAccel_attempt x4 (by simpa using h4) (by simp [ConfigData.roleAddresses]),
    finish_attempt _ (by simpa using hs)]
  simp only [afterAnswered_cfg]

/-- R199. -/
theorem exec_setLinearAcceleration_sequence (hs : s.seq = .idle)
    (h1 : (x1.toNat : Int) = aregOf s.cfg.toConfigData (quantity s.q0)) :
    exec .setLinearAcceleration s = .next (writeSequence
      [⟨s.cfg.regs.a1, x1, 0⟩, ⟨s.cfg.regs.amax, x1, 0⟩, ⟨s.cfg.regs.dmax, x1, 0⟩, ⟨s.cfg.regs.d1, x1, 0⟩] s) := by
  rw [exec, execSetLinearAcceleration, command_idle _ hs]
  exact congrArg _ (finish_accelWrites (p1 := State.q0) (p2 := State.q0) (p3 := State.q0) (p4 := State.q0) hs (by simp)
    h1 h1 h1 h1)

/-- R200. -/
theorem exec_setAdvancedAcceleration_sequence (hs : s.seq = .idle)
    (h1 : (x1.toNat : Int) = aregOf s.cfg.toConfigData (quantity s.q0))
    (h2 : (x2.toNat : Int) = aregOf s.cfg.toConfigData (quantity s.q1))
    (h3 : (x3.toNat : Int) = aregOf s.cfg.toConfigData (quantity s.q2))
    (h4 : (x4.toNat : Int) = aregOf s.cfg.toConfigData (quantity s.q3)) :
    exec .setAdvancedAcceleration s = .next (writeSequence
      [⟨s.cfg.regs.a1, x1, 0⟩, ⟨s.cfg.regs.amax, x2, 0⟩, ⟨s.cfg.regs.dmax, x3, 0⟩, ⟨s.cfg.regs.d1, x4, 0⟩] s) := by
  rw [exec, execSetAdvancedAcceleration, command_idle _ hs]
  exact congrArg _ (finish_accelWrites (p1 := State.q0) (p2 := State.q1) (p3 := State.q2) (p4 := State.q3) hs (by simp)
    h1 h2 h3 h4)

end

/-- R193: a magnitude in range. -/
theorem exec_rotate_fits {x : Word} (hs : s.seq = .idle)
    (hx : (x.toNat : Int) = vmaxOf s.cfg.toConfigData |quantity s.q0|) :
    exec .rotate s = .next (writeSequence
      [⟨s.cfg.regs.rampmode, if s.q0.toInt ≥ 0 then 1 else 2, 0⟩, ⟨s.cfg.regs.vmax, x, 0⟩] s) := by
  rw [exec_rotate_sequence hs, speedWrite_fits _ (by simpa using hx)]

/-- R193: a magnitude in range, both transfers successful. -/
theorem exec_rotate_ok {x : Word} {ans1 ans2 : Answer} {rest : List Answer} (hs : s.seq = .idle)
    (ha : s.answers = ans1 :: ans2 :: rest) (h1 : ans1.ok = true) (h2 : ans2.ok = true)
    (hmode : writableAt s.cfg.toConfigData s.cfg.regs.rampmode = true)
    (hvmax : writableAt s.cfg.toConfigData s.cfg.regs.vmax = true)
    (hx : (x.toNat : Int) = vmaxOf s.cfg.toConfigData |quantity s.q0|) :
    exec .rotate s = .next
      { afterWrite s.cfg.regs.vmax x ans2 rest
          (afterWrite s.cfg.regs.rampmode (if s.q0.toInt ≥ 0 then 1 else 2) ans1 (ans2 :: rest) s) with err := 0 } := by
  rw [exec_rotate_fits hs hx, writeSequence_pair_ok hmode hvmax ha h1 h2]

/-- R209: the register is volatile, so its `read` is always the two transactions. -/
theorem exec_getActualMotorPosition (hs : s.seq = .idle) :
    exec .getActualMotorPosition s =
      .next (finish ((memRead s.cfg.regs.xactual s).andThen fun w s => .done () (setRes w s))) := by
  obtain ⟨d, hd, hr⟩ := xactual_known s.cfg
  rw [exec, execGetActualMotorPosition, command_idle _ hs, readReg_hardware (by simpa using hd) hr, register?_address hd]

/-! ## Operands -/

/-- R194: every positive image has its opposite in 64 bits. -/
theorem toInt_neg_of_pos {q : Quad} (h : 0 < q.toInt) : (-q).toInt = -q.toInt := by
  refine BitVec.toInt_neg_of_ne_intMin ?_
  rintro rfl
  exact absurd h (by decide)

theorem quantity_neg_of_pos {q : Quad} (h : 0 < q.toInt) : quantity (-q) = -quantity q := by
  rw [quantity, quantity, toInt_neg_of_pos h]
  push_cast
  ring

/-- R162: a speed at or above zero has no negative register value. -/
theorem vmaxOf_nonneg (c : Config) {rpm : Rat} (h : 0 ≤ rpm) : 0 ≤ vmaxOf c.toConfigData rpm := by
  have hmono := vmaxOf_mono c h
  have hzero : vmaxOf c.toConfigData 0 = 0 := by simp [vmaxOf, trunc]
  rwa [hzero] at hmono

/-- R11, R198: below a lower bound the clamp gives that bound. -/
theorem globalScale_of_nonpos {x : Rat} (h : x ≤ 0) : globalScale x = 0 := by
  rw [globalScale, clampRat_eq zero_le_one, max_eq_left ((min_le_right 1 x).trans h)]
  decide +kernel

theorem globalScale_half : globalScale (1 / 2) = 128 := by decide +kernel

theorem globalScale_of_one_le {x : Rat} (h : 1 ≤ x) : globalScale x = 256 := by
  rw [globalScale, clampRat_eq zero_le_one, min_eq_left h, max_eq_right zero_le_one]
  decide +kernel

end Sys2Proof.Machine
end

section
/-! PROOFS. The motion sequencer (spec/43_motion_sequencer.md R190 to R209). -/

namespace Sys2Proof.Machine

open Sys2Proof Sys2Proof.Safety

/-- Settles O44: each command is the sequence of its writes, a speed's word in range or the free one of the draw. -/
theorem compositeCommandsFailFast : Obligations.CompositeCommandsFailFast := by
  intro s hs
  have hrotate := exec_rotate_sequence hs
  have hmove := exec_moveTo_sequence hs
  refine ⟨fun x => exec_rotate_fits hs, fun hx => ?_, fun x hx => ?_, fun hx => ?_,
    fun x1 x2 x3 x4 h1 h2 h3 h4 => ⟨exec_setLinearAcceleration_sequence hs h1,
      exec_setAdvancedAcceleration_sequence hs h1 h2 h3 h4⟩, fun F G x y hF hG hx hy => ?_⟩
  · rw [speedWrite_free _ (.inr (by simpa using hx))] at hrotate
    exact ⟨_, hrotate⟩
  · rwa [speedWrite_fits _ (by simpa using hx)] at hmove
  · rw [speedWrite_free _ (by simpa using hx)] at hmove
    exact ⟨_, hmove⟩
  · rw [hy]
    exact exec_setIhold_sequence hs hF hG hx

/-- Settles O53: the first write's cache entry stands to the end of `ROTATE` and `MOVE_TO`; the register is no target of the
other commands. -/
theorem rampModeTransitions : Obligations.RampModeTransitions := by
  intro i s t h hs hw hroles hstealth
  simp only [List.mem_cons, List.not_mem_nil, or_false, not_or] at hroles
  obtain ⟨hvmax, hstart, htarget, hscaler, ha1, hamax, hdmax, hd1, hcurrent⟩ := hroles
  refine ⟨?_, ?_, fun hrotate hmove hwrite hfield => cacheChangesOnlyAtTargets i s t h _ ?_⟩
  · rintro rfl
    rw [← Host.Outcome.next.inj ((exec_rotate_sequence hs).symm.trans h)]
    exact cacheAt_writeSequence_head (w := ⟨s.cfg.regs.rampmode, _, 0⟩) hw (by simpa using hvmax)
  · rintro rfl
    rw [← Host.Outcome.next.inj ((exec_moveTo_sequence hs).symm.trans h)]
    exact cacheAt_writeSequence_head (w := ⟨s.cfg.regs.rampmode, _, 0⟩) hw (by simpa using ⟨hstart, htarget⟩)
  · obtain ⟨F, hF, hFreg⟩ := irun_role s.cfg
    obtain ⟨G, hG, hGreg⟩ := ihold_role s.cfg
    obtain ⟨H, hH, hHreg⟩ := iholddelay_role s.cfg
    obtain ⟨K, hK, -⟩ := stealth_role s.cfg
    cases i with
    | rotate => exact absurd rfl hrotate
    | moveTo => exact absurd rfl hmove
    | write => exact absurd rfl hwrite
    | writeField => exact absurd rfl hfield
    | stop => simpa [writeTargets] using hvmax
    | setGlobalScaling => simpa [writeTargets] using hscaler
    | setLinearAcceleration => simpa [writeTargets] using ⟨ha1, hamax, hdmax, hd1⟩
    | setAdvancedAcceleration => simpa [writeTargets] using ⟨ha1, hamax, hdmax, hd1⟩
    | setIrun => simpa [writeTargets, fieldTarget, hF, hFreg] using hcurrent
    | setIhold => simpa [writeTargets, fieldTarget, hG, hGreg, hH, hHreg] using hcurrent
    | setStealthChop => simpa [writeTargets, fieldTarget, hK] using (hstealth K hK).symm
    | _ => exact List.not_mem_nil

/-- Settles O30: one write of 0 to the max-velocity register. -/
theorem stopCommand : Obligations.StopCommand :=
  ⟨decodeEncodeRoundTrip .stop rfl, fun _ hs => singleWrite_ends (exec_stop_sequence hs)⟩

/-- Settles O33: the magnitude is the same, and the sign picks the mode. -/
theorem rotateSignByModeOnly : Obligations.RotateSignByModeOnly := by
  intro s ans1 ans2 rest hs ha h1 h2 hmode hvmax hpos hlt
  have hx := toNat_ofInt32 (vmaxOf_nonneg s.cfg (abs_nonneg (quantity s.q0))) hlt
  have habs : |quantity (-s.q0)| = |quantity s.q0| := by rw [quantity_neg_of_pos hpos, abs_neg]
  have hneg : ¬ (-s.q0).toInt ≥ 0 := by
    rw [toInt_neg_of_pos hpos]
    omega
  have hpositive := exec_rotate_ok hs ha h1 h2 hmode hvmax hx
  have hnegative := exec_rotate_ok (s := { s with q0 := -s.q0 }) hs ha h1 h2 hmode hvmax (hx.trans (by rw [habs]))
  rw [if_pos hpos.le] at hpositive
  rw [if_neg hneg] at hnegative
  exact ⟨_, hpositive, hnegative⟩

/-- Settles O36: one write of the clamped factor's 256ths. -/
theorem globalScalingProperties : Obligations.GlobalScalingProperties := by
  intro s ans rest hs ha hok hw
  have hwrite := ((singleWrite_ends (exec_setGlobalScaling_sequence hs)).2 ans rest ha hw).1 hok
  refine ⟨fun hq => ?_, fun hq => ?_, fun hq => ?_⟩
  · rwa [globalScale_of_nonpos hq] at hwrite
  · rwa [hq, globalScale_half] at hwrite
  · rwa [globalScale_of_one_le hq] at hwrite

/-- Settles O39: one write of a field of the current-control register. -/
theorem setIrunCommand : Obligations.SetIrunCommand := by
  refine ⟨decodeEncodeRoundTrip .setIrun rfl, fun s F hs hF => ⟨of_field_role (irun_role s.cfg) hF, ?_, ?_⟩⟩
  · have hle := csOf_le s.cfg (quantity s.q0)
    have hx := toNat_ofInt32 (csOf_nonneg s.cfg (quantity s.q0)) (by omega)
    exact (singleWrite_ends (exec_setIrun_sequence hs hF hx)).1
  · intro ans rest x ha hw hx
    exact (singleWrite_ends (exec_setIrun_sequence hs hF hx)).2 ans rest ha hw

/-- Settles O40: two successful writes of the command's sequence. -/
theorem setIholdCommand : Obligations.SetIholdCommand := by
  refine ⟨decodeEncodeRoundTrip .setIhold rfl, fun s ans1 ans2 rest F G x y hs ha h1 h2 hF hG hw hx hy => ?_⟩
  rw [exec_setIhold_sequence hs hF hG hx, ← hy, writeSequence_pair_ok hw hw ha h1 h2]

/-- Settles O41: one write of the field, of bit 0 of `V`. -/
theorem setStealthChopCommand : Obligations.SetStealthChopCommand :=
  ⟨decodeEncodeRoundTrip .setStealthChop rfl, fun s _ hs hF =>
    ⟨of_field_role (stealth_role s.cfg) hF, singleWrite_ends (exec_setStealthChop_sequence hs hF)⟩⟩

/-- Settles O42: the two transactions, the second word delivered unchanged. -/
theorem getActualMotorPositionCommand : Obligations.GetActualMotorPositionCommand := by
  refine ⟨decodeEncodeRoundTrip .getActualMotorPosition rfl, fun s hs => ?_⟩
  rw [exec_getActualMotorPosition hs]
  refine ⟨fun ans1 rest ha h1 => ?_, fun ans1 ans2 rest ha h1 h2 => ?_, fun ans1 ans2 rest ha h1 h2 => ?_⟩
  · rw [finish_memRead_failed1 _ _ ha h1]
  · rw [finish_memRead_failed2 _ _ ha h1 h2]
  · exact congrArg Host.Outcome.next (finish_memRead_setRes _ id hs ha h1 h2)

end Sys2Proof.Machine
end

section
/-! PROOFS. The end of a command on an error (spec/60_exceptions.md R236, R238). -/

namespace Sys2Proof.Machine

open Sys2Proof Sys2Proof.Safety

/-- R236: every command of the table can succeed. -/
theorem zero_mem_errorsOf {i : Instr} (hi : i.isCommand = true) : (0 : Byte) ∈ errorsOf i := by
  cases i with
  | dgramWrite a v => exact absurd hi Bool.false_ne_true
  | dgramReadreq a => exact absurd hi Bool.false_ne_true
  | dgramDummy => exact absurd hi Bool.false_ne_true
  | _ => exact List.mem_cons_self

/-- Settles O46: a command is a core that raises only the kinds of its row, ended by that kind's code or by 0. -/
theorem errorKindsByCommand : Obligations.ErrorKindsByCommand := by
  intro i s hi hs
  obtain ⟨r, hr, c, ⟨-, -, -, -, -, -, herr⟩, hc⟩ := exec_command i s hi hs
  refine ⟨finish r, hr, ?_⟩
  obtain ⟨kind, u, hcore, rfl⟩ | ⟨u, v, -, rfl, -⟩ := hc
  · exact ⟨raise_seq kind u, herr kind u hcore⟩
  · exact ⟨succeed_seq v, zero_mem_errorsOf hi⟩

/-- Settles O45: `raise` writes its own registers only, and its one event is the `Deselect` of a phase that owes it. -/
theorem raiseEndsCommand : Obligations.RaiseEndsCommand := by
  intro kind s
  refine ⟨raise_err kind s, raise_seq kind s, raise_resHeld kind s, raise_qresHeld kind s, raise_cache kind s,
    raise_cfg kind s, raise_op kind s, raise_a kind s, raise_v kind s, raise_w kind s, raise_q0 kind s, raise_q1 kind s,
    raise_q2 kind s, raise_q3 kind s, raise_txn kind s, raise_answers kind s, raise_host kind s,
    fun op k ph hs hph => raise_trace_owed kind ?_, fun op k ph hs hph => raise_trace kind ?_,
    fun hs => raise_trace kind (owesDeselect_idle hs)⟩
  · rw [hs]
    obtain rfl | rfl | rfl | rfl := hph <;> rfl
  · rw [hs]
    obtain rfl | rfl | rfl | rfl := hph <;> rfl

end Sys2Proof.Machine
end

section
/-! SUPPORT. What `WRITE` accepts and what `GET_SHADOW` serves (spec/41_communicator.md R135, R143), and `MOVE_TO` with its
three transfers successful (spec/43_motion_sequencer.md R195). -/

namespace Sys2Proof.Machine

open Sys2Proof Sys2Proof.Safety

variable {s t : State} {d : RegisterDescriptor}

/-- R110, R135: `WRITE` to an unknown address. -/
theorem exec_write_unknown (hs : s.seq = .idle) (h : findRegister s.cfg.toConfigData s.a = none) :
    exec .write s = .next (raise .invalidParameter s) := by
  rw [exec, execWrite, command_idle _ hs, writeReg, acceptWrite_unknown h, andThen_err, finish_err]

/-- R136: `WRITE` to a register that may not be written. -/
theorem exec_write_readOnly (hs : s.seq = .idle) (hd : findRegister s.cfg.toConfigData s.a = some d)
    (hw : d.writable = false) : exec .write s = .next (raise .invalidParameter s) := by
  rw [exec, execWrite, command_idle _ hs, writeReg, acceptWrite_found hd, if_neg (by simp [hw]), andThen_err, finish_err]

/-- R135, R230: a `WRITE` that ends with any other code than InvalidParameter's was accepted: its register is known and
writable. -/
theorem exec_write_accepted (hs : s.seq = .idle) (h : exec .write s = .next t)
    (herr : t.err ≠ ErrKind.code .invalidParameter) :
    ∃ d, findRegister s.cfg.toConfigData s.a = some d ∧ d.writable = true := by
  have hne : exec .write s ≠ .next (raise .invalidParameter s) := fun hr =>
    herr (by rw [← Host.Outcome.next.inj (hr.symm.trans h), raise_err])
  cases hd : findRegister s.cfg.toConfigData s.a with
  | none => exact absurd (exec_write_unknown hs hd) hne
  | some d =>
    cases hw : d.writable with
    | false => exact absurd (exec_write_readOnly hs hd hw) hne
    | true => exact ⟨d, rfl, hw⟩

/-- R143: `GET_SHADOW` of an address in range, the registry not consulted. -/
theorem exec_getShadow_of_le (hs : s.seq = .idle) (h : s.a.toNat ≤ 127) :
    exec .getShadow s = .next { s with res := cacheAt s (s.a.setWidth 7), resHeld := true, err := 0 } := by
  rw [exec, execGetShadow, command_idle _ hs, shadow, addrOf_of_le h]
  exact congrArg _ (finish_setRes _ hs)

/-- R195: a speed in range, the three transfers successful. -/
theorem exec_moveTo_ok {x : Word} {ans1 ans2 ans3 : Answer} {rest : List Answer} (hs : s.seq = .idle)
    (ha : s.answers = ans1 :: ans2 :: ans3 :: rest) (h1 : ans1.ok = true) (h2 : ans2.ok = true) (h3 : ans3.ok = true)
    (hmode : writableAt s.cfg.toConfigData s.cfg.regs.rampmode = true)
    (hspeed : writableAt s.cfg.toConfigData s.cfg.regs.startSpeed = true)
    (htarget : writableAt s.cfg.toConfigData s.cfg.regs.xtarget = true)
    (hx : (x.toNat : Int) = vmaxOf s.cfg.toConfigData (quantity s.q0)) :
    exec .moveTo s = .next
      { afterWrite s.cfg.regs.xtarget s.v ans3 rest
          (afterWrite s.cfg.regs.startSpeed x ans2 (ans3 :: rest)
            (afterWrite s.cfg.regs.rampmode 0 ans1 (ans2 :: ans3 :: rest) s)) with err := 0 } := by
  rw [exec_moveTo_sequence hs, speedWrite_fits _ (by simpa using hx), writeSequence_ok hmode ha h1]
  exact congrArg _ (writeSequence_pair_ok (s := afterWrite s.cfg.regs.rampmode 0 ans1 (ans2 :: ans3 :: rest) s)
    hspeed htarget rfl h2 h3)

end Sys2Proof.Machine
end

section
/-! PROOFS. The hazards of a failed write and of a move's order (spec/70_reset_and_hazards.md R270, R275). -/

namespace Sys2Proof.Machine

open Sys2Proof Sys2Proof.Safety

/-- Settles O21: a transfer that fails comes after the cache was written, and the cache entry is what both commands serve. -/
theorem failedWriteStaysInCache : Obligations.FailedWriteStaysInCache := by
  intro s t hs h herr
  obtain ⟨d, hd, hw⟩ := exec_write_accepted hs h (by rw [herr]; decide)
  obtain ⟨-, haddr, hle⟩ := findRegister_some hd
  have hcache : cacheAt t d.address = s.v := cacheAt_of_exec_write hs hd hw h
  obtain ⟨hcfg, -, ha, -, -, -, -, -, -, -, hseq⟩ := operandRegistersNeverWritten .write s t h
  have hidle : t.seq = .idle := hseq.trans hs
  refine ⟨?_, fun d' hd' hv _ => ?_⟩
  · rw [exec_getShadow_of_le hidle (by rwa [ha]), ha, ← haddr, hcache]
  · obtain rfl : d = d' := Option.some.inj (hd.symm.trans hd')
    exact readAfterWrite s t d hs hd hw hv h

/-- Settles O34: the three writes of the command's sequence, each transfer successful. -/
theorem moveToCommand : Obligations.MoveToCommand :=
  ⟨decodeEncodeRoundTrip .moveTo rfl, fun _ _ _ _ _ _ => exec_moveTo_ok⟩

end Sys2Proof.Machine
end

section
/-! SUPPORT. The reserved opcodes, the wire frames byte by byte and by themselves, `LOOKUP`, both ends of `WRITE` and
`GET_SHADOW`, the port forms of the speed conversions, the bounds of the global scaling, and four writes in a row
(spec/30_encoding.md R81 to R91, spec/40_field_unit.md R115, spec/41_communicator.md R131 to R143,
spec/42_converter.md R162 to R164, spec/43_motion_sequencer.md R197 to R200). -/

namespace Sys2Proof.Machine

open Sys2Proof Sys2Proof.Safety

variable {s : State}

/-! ## Reserved opcodes -/

/-- R89: the four ranges of the opcode map. -/
theorem commandTable_ranges : ∀ row ∈ commandTable,
    (0x01 ≤ row.1.toNat ∧ row.1.toNat ≤ 0x03) ∨ (0x08 ≤ row.1.toNat ∧ row.1.toNat ≤ 0x0C) ∨
      (0x10 ≤ row.1.toNat ∧ row.1.toNat ≤ 0x14) ∨ (0x20 ≤ row.1.toNat ∧ row.1.toNat ≤ 0x2A) := by
  decide

/-- R91: an opcode of no row. -/
theorem decodeCommand_eq_none {op : Byte} (h : ∀ row ∈ commandTable, row.1 ≠ op) : decodeCommand op = none := by
  simpa [decodeCommand] using h

/-- R91: an issue event with a reserved opcode, in `IDLE`. -/
theorem step_issue_reserved {rest : List HostAction} (hs : s.seq = .idle) (hh : s.host = .issue :: rest)
    (h : decodeCommand s.op = none) : step s = .next (raise .notImplemented { s with host := rest }) :=
  (step_host hs hh).trans ((issue_reserved (s := { s with host := rest }) h).trans (command_idle _ hs))

/-! ## `LOOKUP` -/

/-- R115, D30: the bits of a descriptor as a port value. -/
theorem getLsbD_descriptorCode (d : RegisterDescriptor) (b : Nat) :
    (descriptorCode d).getLsbD b =
      if b = 0 then d.readable else if b = 1 then d.writable else if b = 2 then d.volatile else false := by
  have hbits : (descriptorCode d).getLsbD b =
      (decide (b < 32) && (BitVec.ofBool d.volatile ++ BitVec.ofBool d.writable ++ BitVec.ofBool d.readable :
        BitVec (1 + 1 + 1)).getLsbD b) := BitVec.getLsbD_setWidth ..
  rw [hbits, BitVec.getLsbD_append, BitVec.getLsbD_append]
  obtain _ | _ | _ | b := b <;> simp

/-- R115: `LOOKUP` of a known address. -/
theorem exec_lookup_found {d : RegisterDescriptor} (hs : s.seq = .idle)
    (hd : findRegister s.cfg.toConfigData s.a = some d) :
    exec .lookup s = .next { s with res := descriptorCode d, resHeld := true, err := 0 } := by
  rw [exec, execLookup, command_idle _ hs, lookup_some hd, andThen_done, finish_setRes _ hs]

/-- R110, R115: `LOOKUP` of an address out of range or unknown. -/
theorem exec_lookup_unknown (hs : s.seq = .idle) (h : findRegister s.cfg.toConfigData s.a = none) :
    exec .lookup s = .next (raise .invalidParameter s) := by
  rw [exec, execLookup, command_idle _ hs, lookup_none h, andThen_err, finish_err]

/-! ## Wire frames -/

/-- R131: a frame by itself, its answer given. -/
theorem sendFrame_cons (f : Frame) {ans : Answer} {rest : List Answer} (hs : s.seq = .idle)
    (ha : s.answers = ans :: rest) : sendFrame f s = .next (afterRead f ans rest s) := by
  rw [← bracket_cons f ha]
  simp [sendFrame, hs]

/-- R80: a 7-bit address fills the low bits of its byte. -/
theorem addressByte_eq (isWrite : Bool) (a : Addr) :
    addressByte isWrite a = (if isWrite then 0x80 else 0x00) ||| a.setWidth 8 := by
  have hlow : a.setWidth 8 &&& (0x7F : Byte) = a.setWidth 8 := by
    apply BitVec.eq_of_toNat_eq
    have := a.isLt
    rw [BitVec.toNat_and, show (0x7F : Byte).toNat = 2 ^ 7 - 1 from rfl, Nat.and_two_pow_sub_one_eq_mod,
      BitVec.toNat_setWidth]
    omega
  rw [addressByte, hlow]

/-- R82: the write frame byte by byte. -/
theorem frameWrite_eq (a : Addr) (v : Word) :
    Frame.write a v = ⟨0x80 ||| a.setWidth 8, v.extractLsb' 24 8, v.extractLsb' 16 8, v.extractLsb' 8 8,
      v.extractLsb' 0 8⟩ := by
  rw [Frame.write, addressByte_eq]
  rfl

/-- R83: the read request byte by byte. -/
theorem frameReadReq_eq (a : Addr) : Frame.readReq a = ⟨a.setWidth 8, 0, 0, 0, 0⟩ := by
  rw [Frame.readReq, addressByte_eq]
  simp [Frame.ofWord]

/-! ## `WRITE` and `GET_SHADOW` -/

/-- R135: `WRITE` to a known address, whatever the registry allows and the transport answers. -/
theorem exec_write_sequence {d : RegisterDescriptor} (hs : s.seq = .idle)
    (hd : findRegister s.cfg.toConfigData s.a = some d) :
    exec .write s = .next (writeSequence [⟨d.address, s.v, 0⟩] s) := by
  rw [exec, execWrite, command_idle _ hs, writeReg_found hd, finish_attempt _ hs]

/-- R143: `GET_SHADOW` of an address out of range. -/
theorem exec_getShadow_of_gt (hs : s.seq = .idle) (h : 127 < s.a.toNat) :
    exec .getShadow s = .next (raise .registerAccessFailed s) := by
  rw [exec, execGetShadow, command_idle _ hs, shadow, addrOf_of_gt h, andThen_err, finish_err]

/-! ## Conversions -/

/-- R162 at the port: the quantity's 32 fraction bits cancel against the formula's factors. -/
theorem vmaxOf_quantity (c : Config) (q : Quad) :
    vmaxOf c.toConfigData (quantity q) = trunc ((q.toInt : Rat) * c.fullSteps / (60 * c.clockHz)) := by
  have hc := (clockHz_pos c).ne'
  rw [vmaxOf, quantity]
  congr 1
  field_simp
  ring

/-- R162: `RPM_TO_VMAX` of a speed in range. -/
theorem exec_rpmToVmax_fits (hs : s.seq = .idle) (h0 : 0 ≤ vmaxOf s.cfg.toConfigData (quantity s.q0))
    (h1 : vmaxOf s.cfg.toConfigData (quantity s.q0) < 2 ^ 32) :
    exec .rpmToVmax s = .next
      { s with res := BitVec.ofInt 32 (vmaxOf s.cfg.toConfigData (quantity s.q0)), resHeld := true, err := 0 } := by
  rw [exec, execRpmToVmax, command_idle _ hs, deliverVelocity, velocityWord_fits s h0 h1]
  exact congrArg _ (finish_setRes _ hs)

/-- R164: `VMAX_TO_RPM`, before the range is looked at. -/
theorem exec_vmaxToRpm (hs : s.seq = .idle) :
    exec .vmaxToRpm s = .next (finish (.done () (deliverSpeed s.v.toNat s))) := by
  rw [exec, execVmaxToRpm, command_idle _ hs]

/-- R11: at and above zero the nearest integer, ties up, is less than or just one half away. -/
theorem roundAway_bounds {x : Rat} (h : 0 ≤ x) : x - 1 / 2 < roundAway x ∧ (roundAway x : Rat) ≤ x + 1 / 2 := by
  rw [roundAway, if_pos h]
  have hlow : x + 1 / 2 < ((x + 1 / 2).floor : Rat) + 1 := Int.lt_floor_add_one (x + 1 / 2)
  have hhigh : ((x + 1 / 2).floor : Rat) ≤ x + 1 / 2 := Int.floor_le (x + 1 / 2)
  exact ⟨by linarith, hhigh⟩

/-- R197: the scaling is the clamped factor's 256ths, rounded to nearest with ties up. -/
theorem globalScale_bounds (x : Rat) :
    max 0 (min 1 x) * 256 - 1 / 2 < globalScale x ∧ (globalScale x : Rat) ≤ max 0 (min 1 x) * 256 + 1 / 2 := by
  rw [globalScale, clampRat_eq zero_le_one]
  exact roundAway_bounds (by positivity)

/-- R197: half a unit beyond either end of the clamp holds no further integer. -/
theorem globalScale_range (x : Rat) : 0 ≤ globalScale x ∧ globalScale x ≤ 256 := by
  obtain ⟨hlow, hhigh⟩ := globalScale_bounds x
  have h0 : 0 ≤ max 0 (min 1 x) := le_max_left _ _
  have h1 : max 0 (min 1 x) ≤ 1 := max_le zero_le_one (min_le_left _ _)
  have hneg : -1 < globalScale x := by exact_mod_cast (by linarith : (-1 : Rat) < globalScale x)
  have hlt : globalScale x < 257 := by exact_mod_cast (by linarith : (globalScale x : Rat) < 257)
  omega

/-! ## Four writes -/

section
variable {r1 r2 r3 r4 : Addr} {x1 x2 x3 x4 : Word} {ans1 ans2 ans3 ans4 : Answer} {rest : List Answer}

/-- R27, R191: four writes, all answered `ok`. -/
theorem writeSequence_four_ok (ha : s.answers = ans1 :: ans2 :: ans3 :: ans4 :: rest) (h1 : ans1.ok = true)
    (h2 : ans2.ok = true) (h3 : ans3.ok = true) (h4 : ans4.ok = true) (hw1 : writableAt s.cfg.toConfigData r1 = true)
    (hw2 : writableAt s.cfg.toConfigData r2 = true) (hw3 : writableAt s.cfg.toConfigData r3 = true)
    (hw4 : writableAt s.cfg.toConfigData r4 = true) :
    writeSequence [⟨r1, x1, 0⟩, ⟨r2, x2, 0⟩, ⟨r3, x3, 0⟩, ⟨r4, x4, 0⟩] s =
      { afterWrite r4 x4 ans4 rest
          (afterWrite r3 x3 ans3 (ans4 :: rest)
            (afterWrite r2 x2 ans2 (ans3 :: ans4 :: rest)
              (afterWrite r1 x1 ans1 (ans2 :: ans3 :: ans4 :: rest) s))) with err := 0 } := by
  rw [writeSequence_ok hw1 ha h1, writeSequence_ok (by simpa using hw2) (afterWrite_answers ..) h2,
    writeSequence_pair_ok (by simpa using hw3) (by simpa using hw4) (afterWrite_answers ..) h3 h4]

end

end Sys2Proof.Machine
end

section
/-! PROOFS. The reserved opcodes, the wire frames by themselves, `LOOKUP`, `WRITE`, `GET_SHADOW`, the speed conversions
and the motion commands of one, two and four writes (spec/30_encoding.md, spec/40_field_unit.md to
spec/43_motion_sequencer.md). -/

namespace Sys2Proof.Machine

open Sys2Proof Sys2Proof.Safety

/-- Settles O5: the opcode is in none of the map's ranges, and `raise` in `IDLE` sends nothing. -/
theorem reservedOpcodeEndsNotImplemented : Obligations.ReservedOpcodeEndsNotImplemented := by
  intro s rest hs hh hop
  have hnone : decodeCommand s.op = none := by
    refine decodeCommand_eq_none fun row hrow heq => ?_
    have hrange := commandTable_ranges row hrow
    rw [heq] at hrange
    omega
  refine ⟨_, step_issue_reserved hs hh hnone, ?_⟩
  simp [raise_trace _ (owesDeselect_idle (s := { s with host := rest }) hs), ErrKind.code]

/-- Settles O10: the lookup decides, and bits 0 to 2 of the delivered word are the descriptor's three marks. -/
theorem lookupCommand : Obligations.LookupCommand := by
  refine ⟨decodeEncodeRoundTrip .lookup rfl, fun s hs => ⟨fun d hd => ?_, exec_lookup_unknown hs⟩⟩
  refine ⟨descriptorCode d, exec_lookup_found hs hd, ?_, ?_, ?_, fun b hb => ?_⟩
  · exact getLsbD_descriptorCode d 0
  · exact getLsbD_descriptorCode d 1
  · exact getLsbD_descriptorCode d 2
  · rw [getLsbD_descriptorCode, if_neg (by omega), if_neg (by omega), if_neg (by omega)]

/-- Settles O13: in `IDLE` a frame is one bracket, and the block's frames are these bytes. -/
theorem wireFramesSendOneBracket : Obligations.WireFramesSendOneBracket := by
  intro s ans rest hs ha
  refine ⟨fun a v => ?_, fun a => ?_, sendFrame_cons Frame.dummy hs ha⟩
  · rw [← frameWrite_eq]
    exact sendFrame_cons _ hs ha
  · rw [← frameReadReq_eq]
    exact sendFrame_cons _ hs ha

/-- Settles O14: the lookup refuses, or one write decides as the registry allows and the transport answers. -/
theorem writeCommand : Obligations.WriteCommand := by
  refine ⟨decodeEncodeRoundTrip .write rfl, fun s hs => ⟨exec_write_unknown hs, fun d hd =>
    ⟨exec_write_readOnly hs hd, fun ans rest ha hw => ?_⟩⟩⟩
  exact (singleWrite_ends (exec_write_sequence hs hd)).2 ans rest ha
    ((writableAt_of_found (findRegister_some hd).1).trans hw)

/-- Settles O18: the range of the address decides, the registry is not asked. -/
theorem getShadowCommand : Obligations.GetShadowCommand :=
  ⟨decodeEncodeRoundTrip .getShadow rfl, fun _ hs => ⟨exec_getShadow_of_le hs, exec_getShadow_of_gt hs⟩⟩

/-- Settles O22: the port form is the conversion of the operand's quantity, and in range its word is delivered. -/
theorem rpmToVmaxCommand : Obligations.RpmToVmaxCommand := by
  refine ⟨decodeEncodeRoundTrip .rpmToVmax rfl, fun s n hs hn h0 h1 => ?_⟩
  obtain rfl : n = vmaxOf s.cfg.toConfigData (quantity s.q0) := hn.trans (vmaxOf_quantity s.cfg s.q0).symm
  exact ⟨_, toNat_ofInt32 h0 h1, exec_rpmToVmax_fits hs h0 h1⟩

/-- Settles O23: the port form is the image of the speed, and the image's range decides between its word and free bits. -/
theorem vmaxToRpmCommand : Obligations.VmaxToRpmCommand := by
  refine ⟨decodeEncodeRoundTrip .vmaxToRpm rfl, fun s m hs hm => ?_⟩
  obtain rfl : m = rpmImage s.cfg.toConfigData s.v.toNat := hm.trans (rpmImage_eq s.cfg s.v.toNat).symm
  rw [exec_vmaxToRpm hs]
  refine ⟨fun hfits => ?_, fun hbig => ?_⟩
  · obtain ⟨x, hx, hfin⟩ := finish_deliverSpeed_fits hs hfits
    exact ⟨x, hx, congrArg _ hfin⟩
  · obtain ⟨x, hfin⟩ := finish_deliverSpeed_free hs hbig
    exact ⟨x, congrArg _ hfin⟩

/-- Settles O31: the two writes of the command's sequence, each transfer successful. -/
theorem rotateCommand : Obligations.RotateCommand :=
  ⟨decodeEncodeRoundTrip .rotate rfl, fun _ _ _ _ _ => exec_rotate_ok⟩

/-- Settles O35: one write of the scaling's word, which is less than or just half a unit from the clamped factor's 256ths. -/
theorem setGlobalScalingCommand : Obligations.SetGlobalScalingCommand := by
  refine ⟨decodeEncodeRoundTrip .setGlobalScaling rfl, fun s hs => ?_⟩
  obtain ⟨hrefused, hanswered⟩ := singleWrite_ends (exec_setGlobalScaling_sequence hs)
  refine ⟨hrefused, fun ans rest ha hw => ?_⟩
  obtain ⟨h0, h256⟩ := globalScale_range (quantity s.q0)
  obtain ⟨hlow, hhigh⟩ := globalScale_bounds (quantity s.q0)
  have hx := toNat_ofInt32 h0 (by omega)
  rw [← hx] at hlow hhigh
  exact ⟨_, by omega, hlow, hhigh, hanswered ans rest ha hw⟩

/-- Settles O37: the four writes of the command's sequence, one word for all, each transfer successful. -/
theorem setLinearAccelerationCommand : Obligations.SetLinearAccelerationCommand := by
  refine ⟨decodeEncodeRoundTrip .setLinearAcceleration rfl,
    fun s ans1 ans2 ans3 ans4 rest x hs ha h1 h2 h3 h4 hw1 hw2 hw3 hw4 hx => ?_⟩
  rw [exec_setLinearAcceleration_sequence hs hx, writeSequence_four_ok ha h1 h2 h3 h4 hw1 hw2 hw3 hw4]

/-- Settles O38: the four writes of the command's sequence, a word for each, each transfer successful. -/
theorem setAdvancedAccelerationCommand : Obligations.SetAdvancedAccelerationCommand := by
  refine ⟨decodeEncodeRoundTrip .setAdvancedAcceleration rfl,
    fun s ans1 ans2 ans3 ans4 rest x1 x2 x3 x4 hs ha h1 h2 h3 h4 hw1 hw2 hw3 hw4 hx1 hx2 hx3 hx4 => ?_⟩
  rw [exec_setAdvancedAcceleration_sequence hs hx1 hx2 hx3 hx4,
    writeSequence_four_ok ha h1 h2 h3 h4 hw1 hw2 hw3 hw4]

end Sys2Proof.Machine
end
